-- ==== Sys2Proof/Word.lean ====
section
/-! DEFINITION. The words of the machine (`10_state.md`, `20_memory.md`): widths only. -/

namespace Sys2Proof

/-- A data word, a 16-bit register, a data-space address (R5, R101). -/
abbrev Word := BitVec 16

/-- A byte of data space (R101). -/
abbrev Byte := BitVec 8

/-- One word of program memory: an instruction word or a vector entry (R100, R130). -/
abbrev ProgWord := BitVec 24

/-- The program counter, `PC<22:0>` (R21). -/
abbrev PC := BitVec 23

/-- An accumulator, 40 bits (R61). -/
abbrev Acc := BitVec 40

/-- The number of a working register, W0 to W15 (R20). -/
abbrev WReg := BitVec 4

end Sys2Proof
end

