-- ==== Sys2Proof/Config.lean ====
section
/-! DEFINITION. What a device fixes (`00_scope.md` R4), as plain data, and the free values: constants with no body, which
no proof can see. -/

namespace Sys2Proof

/-- The parameters of R4: what the device, and not the manual, fixes. State holds one `Device`, and no step changes it, so a
statement about every state is a statement about every device (log 2). Ranges are inclusive. -/
structure Device where
  /-- `IRQ_IMPLEMENTED`: bit `i` says whether the device has IRQ `i`, 0 to 44. -/
  irqImplemented : BitVec 45
  /-- `PROG_IMPLEMENTED`, as ranges of program addresses. The vector tables, 0x000004 to 0x0000FE, are taken to be implemented
  whatever stands here (D30). -/
  progRanges : List (Nat × Nat)
  /-- `DATA_IMPLEMENTED`, as ranges of data addresses. -/
  dataRanges : List (Nat × Nat)
  /-- The part of data space that is Y space; the rest is X space (R101, R224). -/
  ySpace : List (Nat × Nat)
  /-- `INT_SKID_MAX` (D7). -/
  intSkidMax : Nat
  /-- `SOFT_TRAP_SKID_MAX` (D8). -/
  softTrapSkidMax : Nat
  /-- `TRAP_FLAG_SW_SET`: a software-written 1 in a trap status flag requests the trap (D6). -/
  trapFlagSwSet : Bool
  /-- `FSCM_ENABLED` (R225). -/
  fscmEnabled : Bool
  /-- `PLL_IN_USE` (R225). -/
  pllInUse : Bool
  /-- `SR_ADDR`. -/
  srAddr : Nat
  /-- `CORCON_ADDR`. -/
  corconAddr : Nat
  /-- `DISICNT_ADDR`. -/
  disicntAddr : Nat
  /-- `SPLIM_ADDR`. -/
  splimAddr : Nat
  /-- `W15_ADDR`: W15 stands here and each lower register two bytes below the next (R20). -/
  w15Addr : Nat
  /-- `RCON_ADDR`. -/
  rconAddr : Nat
  /-- `OSCCON_ADDR`. -/
  oscconAddr : Nat
  deriving DecidableEq, Repr

/-- DESIGN CHOICE (log 2): the device of `State.reset`. R4's defaults where it gives one; all memory implemented, no Y space,
FSCM on, PLL in use, a written 1 requests no trap. No statement rests on it. -/
def Device.default : Device where
  irqImplemented := BitVec.allOnes 45
  progRanges := [(0, 0x7FFFFF)]
  dataRanges := [(0, 0xFFFF)]
  ySpace := []
  intSkidMax := 1
  softTrapSkidMax := 2
  trapFlagSwSet := false
  fscmEnabled := true
  pllInUse := true
  srAddr := 0x0042
  corconAddr := 0x0044
  disicntAddr := 0x0052
  splimAddr := 0x0020
  w15Addr := 0x001E
  rconAddr := 0x0740
  oscconAddr := 0x0742

namespace Config

/-- A free 16-bit value, the `n`-th draw (log 1): a trapping read (U6), a divide's result (U8), a register after Reset (U4). -/
opaque freeWord : Nat → Word

/-- A free bit, the `n`-th draw (log 1): a flag whose value no rule states. -/
opaque freeBit : Nat → Bool

/-- A free accumulator value, the `n`-th draw (log 12). -/
opaque freeAcc : Nat → Acc

/-- A free instruction address, `PC<22:1>`, the `n`-th draw: the PC past the top of program space (N12, log 17). -/
opaque freePc : Nat → BitVec 22

/-- The choice of R235 step 4 at the `n`-th draw: true lets one more instruction run before an acceptable interrupt or soft
trap is entered (log 8). -/
opaque skid : Nat → Bool

/-- What a byte of data memory that nothing has written reads as, after `epoch` device Resets (U4, log 4). -/
opaque ramByte : (epoch addr : Nat) → Byte

/-- What a byte of a program word that the image does not list reads as (R132, D30, log 5). -/
opaque imageByte : Nat → Byte

end Config
end Sys2Proof
end

