-- ==== Sys2Proof/Syntax.lean ====
section
/-! DEFINITION. The instructions of spec/opcode_table.json (R133), one constructor a row. -/

namespace Sys2Proof

/-- The target accumulator of SFTAC (R133: `A`, 0 = accumulator A, 1 = B). -/
inductive AccSel where
  | a
  | b
  deriving DecidableEq, Repr

/-- What PWRSAV enters (R171: 0 = Sleep, 1 = Idle). -/
inductive PowerMode where
  | sleep
  | idle
  deriving DecidableEq, Repr

/-- The addressing modes of the three-bit fields `p` and `q` of R133. PRESUMED (log 10): the spec gives the field and not its
values; they are the family's. -/
inductive AddrMode where
  /-- 000: the register itself. -/
  | direct
  /-- 001: `[Wn]`. -/
  | indirect
  /-- 010: `[Wn--]`. -/
  | postDec
  /-- 011: `[Wn++]`. -/
  | postInc
  /-- 100: `[--Wn]`. -/
  | preDec
  /-- 101: `[++Wn]`. -/
  | preInc
  /-- 110: unused in the family. -/
  | unused6
  /-- 111: unused in the family. -/
  | unused7
  deriving DecidableEq, Repr

/-- The field `W` of the divide rows (R133): a 16-bit or a 32-bit dividend. -/
inductive DivWidth where
  | single
  | double
  deriving DecidableEq, Repr

/-- The instructions. Fields are those of R133's patterns, at their widths. -/
inductive Instr where
  /-- `NOP` (R183). -/
  | nop
  /-- `BRA Expr`: a signed 16-bit word offset (R173). -/
  | bra (n : BitVec 16)
  /-- `GOTO Expr`, word 1 and word 2 together: target bits 22:1 (R172). -/
  | goto (target : BitVec 22)
  /-- The second word of `GOTO`, executed by itself (R133, R138; log 22). The decoder never starts here. -/
  | gotoWord2 (n : BitVec 7)
  /-- `RETURN` (R174). -/
  | returnSub
  /-- `RETFIE` (R152). -/
  | retfie
  /-- `REPEAT #lit14` (R176). -/
  | repeatLit (k : BitVec 14)
  /-- `REPEAT Wn` (R176). -/
  | repeatReg (s : WReg)
  /-- `DISI #lit14` (R150). -/
  | disi (k : BitVec 14)
  /-- `RESET` (R170). -/
  | reset
  /-- `PWRSAV #lit1` (R171). -/
  | pwrsav (mode : PowerMode)
  /-- `SFTAC Acc, #Slit6`: a signed 6-bit shift (R175). -/
  | sftacLit (acc : AccSel) (k : BitVec 6)
  /-- `SFTAC Acc, Wb` (R175). -/
  | sftacReg (acc : AccSel) (s : WReg)
  /-- `PUSH f`: address bits 15:1 (R181). -/
  | push (f : BitVec 15)
  /-- `POP f`: address bits 15:1 (R182). -/
  | pop (f : BitVec 15)
  /-- `MOV.D Ws, Wnd`: destination pair number, source mode, source register (R178). -/
  | movdLoad (d : BitVec 3) (p : AddrMode) (s : WReg)
  /-- `MOV.D Wns, Wd`: destination mode, destination register, source pair number (R178). -/
  | movdStore (q : AddrMode) (d : WReg) (s : BitVec 3)
  /-- `BTSC f, #bit4`: bit number, address bits 12:1 of the word (R179). -/
  | btscF (bit : BitVec 4) (f : BitVec 12)
  /-- `BTSC Ws, #bit4` (R179). -/
  | btscW (bit : BitVec 4) (p : AddrMode) (s : WReg)
  /-- `BTSS f, #bit4` (R180). -/
  | btssF (bit : BitVec 4) (f : BitVec 12)
  /-- `BTSS Ws, #bit4` (R180). -/
  | btssW (bit : BitVec 4) (p : AddrMode) (s : WReg)
  /-- `DIV.S Wm, Wn` and `DIV.SD Wm, Wn` (R177). -/
  | divS (t v : WReg) (w : DivWidth) (s : WReg)
  /-- `DIV.U Wm, Wn` and `DIV.UD Wm, Wn` (R177). -/
  | divU (t v : WReg) (w : DivWidth) (s : WReg)
  /-- `DIVF Wm, Wn` (R177). -/
  | divF (t s : WReg)
  deriving DecidableEq, Repr

/-- How many program words an instruction has: two for GOTO, one for every other (R133). -/
def Instr.words : Instr → Nat
  | .goto _ => 2
  | _ => 1

end Sys2Proof
end

