-- ==== Sys2Proof/WellFormed.lean ====
section
/-! DEFINITION. Which terms of `Instr` an assembler writes: a first word, a listed addressing mode, a register pair that
begins at an even register. -/

namespace Sys2Proof

/-- The second word of GOTO "is not a starting point for decoding" (R138); every other constructor is. -/
def Instr.isFirstWord : Instr → Bool
  | .gotoWord2 _ => false
  | _ => true

/-- The two codes of an addressing mode that the family leaves unused (log 10). -/
def AddrMode.listed : AddrMode → Bool
  | .unused6 | .unused7 => false
  | _ => true

/-- A register named directly as a pair must be the pair's even register (R178 moves "a register pair"; log 11). -/
def pairOk (m : AddrMode) (r : WReg) : Bool :=
  match m with
  | .direct => !r.getLsbD 0
  | _ => true

/-- The checks on an instruction's operands. -/
def Instr.modesOk : Instr → Bool
  | .movdLoad _ p s => p.listed && pairOk p s
  | .movdStore q d _ => q.listed && pairOk q d
  | .btscW _ p _ | .btssW _ p _ => p.listed
  | _ => true

/-- A well-formed instruction. -/
def Instr.wellFormed (i : Instr) : Bool :=
  i.isFirstWord && i.modesOk

end Sys2Proof
end

