-- ==== Sys2Proof/Decode.lean ====
section
/-! DEFINITION. The decoder (total, rejecting by name), the encoder, and the opcode table's rows (R133, R138). Bit positions are
those of R133's patterns, bit 23 leftmost. -/

namespace Sys2Proof

/-- Why a word is refused (R135: "a model's decoder refuses every word that is not in its table"). -/
inductive Reject where
  /-- No row has these bits 23:16. -/
  | unknownOpcode
  /-- A row has these bits 23:16, but one of its other fixed bits differs. -/
  | fixedBits
  /-- The word after a `GOTO` is not a second word of `GOTO`. -/
  | gotoSecondWord
  deriving DecidableEq, Repr

/-- The three-bit addressing mode field (log 10). -/
def decodeMode (b : BitVec 3) : AddrMode :=
  match b.toNat with
  | 0 => .direct
  | 1 => .indirect
  | 2 => .postDec
  | 3 => .postInc
  | 4 => .preDec
  | 5 => .preInc
  | 6 => .unused6
  | _ => .unused7

def encodeMode : AddrMode → BitVec 3
  | .direct => 0
  | .indirect => 1
  | .postDec => 2
  | .postInc => 3
  | .preDec => 4
  | .preInc => 5
  | .unused6 => 6
  | .unused7 => 7

/-- The field `A` of SFTAC. -/
def decodeAcc (b : Bool) : AccSel := if b then .b else .a

def encodeAcc : AccSel → BitVec 1
  | .a => 0
  | .b => 1

/-- The field `W` of the divide rows. -/
def decodeWidth (b : Bool) : DivWidth := if b then .double else .single

def encodeWidth : DivWidth → BitVec 1
  | .single => 0
  | .double => 1

/-- The literal of PWRSAV. -/
def decodePower (b : Bool) : PowerMode := if b then .idle else .sleep

def encodePower : PowerMode → BitVec 1
  | .sleep => 0
  | .idle => 1

/-- The decoder: the instruction whose first word is `w`; `w2`, the word after it, is read by `GOTO` only (R133: "a decoder tells the
length from the first word alone"). A word with bits 23:16 zero is `NOP`, the second word of `GOTO` among them (R138). -/
def decode (w w2 : ProgWord) : Except Reject Instr :=
  let op := w.extractLsb' 16 8
  if op = 0x00 then .ok .nop
  else if op = 0x37 then .ok (.bra (w.extractLsb' 0 16))
  else if op = 0x04 then
    if w.extractLsb' 0 1 ≠ 0 then .error .fixedBits
    else if w2.extractLsb' 7 17 ≠ 0 then .error .gotoSecondWord
    else .ok (.goto (w2.extractLsb' 0 7 ++ w.extractLsb' 1 15))
  else if op = 0x06 then
    if w.extractLsb' 0 16 = 0x0000 then .ok .returnSub
    else if w.extractLsb' 0 16 = 0x4000 then .ok .retfie
    else .error .fixedBits
  else if op = 0x09 then
    if w.extractLsb' 14 2 = 0 then .ok (.repeatLit (w.extractLsb' 0 14))
    else if w.extractLsb' 4 12 = 0x800 then .ok (.repeatReg (w.extractLsb' 0 4))
    else .error .fixedBits
  else if op = 0xFC then
    if w.extractLsb' 14 2 = 0 then .ok (.disi (w.extractLsb' 0 14)) else .error .fixedBits
  else if op = 0xFE then
    if w.extractLsb' 0 16 = 0x0000 then .ok .reset
    else if w.extractLsb' 1 15 = 0x2000 then .ok (.pwrsav (decodePower (w.getLsbD 0)))
    else .error .fixedBits
  else if op = 0xC8 then
    if w.extractLsb' 6 9 = 0x001 then .ok (.sftacLit (decodeAcc (w.getLsbD 15)) (w.extractLsb' 0 6))
    else if w.extractLsb' 4 11 = 0x000 then .ok (.sftacReg (decodeAcc (w.getLsbD 15)) (w.extractLsb' 0 4))
    else .error .fixedBits
  else if op = 0xF8 then
    if w.extractLsb' 0 1 = 0 then .ok (.push (w.extractLsb' 1 15)) else .error .fixedBits
  else if op = 0xF9 then
    if w.extractLsb' 0 1 = 0 then .ok (.pop (w.extractLsb' 1 15)) else .error .fixedBits
  else if op = 0xBE then
    if w.extractLsb' 11 5 = 0 ∧ w.extractLsb' 7 1 = 0 then
      .ok (.movdLoad (w.extractLsb' 8 3) (decodeMode (w.extractLsb' 4 3)) (w.extractLsb' 0 4))
    else if w.extractLsb' 14 2 = 2 ∧ w.extractLsb' 4 3 = 0 ∧ w.extractLsb' 0 1 = 0 then
      .ok (.movdStore (decodeMode (w.extractLsb' 11 3)) (w.extractLsb' 7 4) (w.extractLsb' 1 3))
    else .error .fixedBits
  else if op = 0xAF then .ok (.btscF (w.extractLsb' 0 1 ++ w.extractLsb' 13 3) (w.extractLsb' 1 12))
  else if op = 0xA7 then
    if w.extractLsb' 7 5 = 0 then
      .ok (.btscW (w.extractLsb' 12 4) (decodeMode (w.extractLsb' 4 3)) (w.extractLsb' 0 4))
    else .error .fixedBits
  else if op = 0xAE then .ok (.btssF (w.extractLsb' 0 1 ++ w.extractLsb' 13 3) (w.extractLsb' 1 12))
  else if op = 0xA6 then
    if w.extractLsb' 7 5 = 0 then
      .ok (.btssW (w.extractLsb' 12 4) (decodeMode (w.extractLsb' 4 3)) (w.extractLsb' 0 4))
    else .error .fixedBits
  else if op = 0xD8 then
    if w.extractLsb' 4 2 = 0 then
      if w.extractLsb' 15 1 = 0 then
        .ok (.divS (w.extractLsb' 11 4) (w.extractLsb' 7 4) (decodeWidth (w.getLsbD 6)) (w.extractLsb' 0 4))
      else
        .ok (.divU (w.extractLsb' 11 4) (w.extractLsb' 7 4) (decodeWidth (w.getLsbD 6)) (w.extractLsb' 0 4))
    else .error .fixedBits
  else if op = 0xD9 then
    if w.extractLsb' 15 1 = 0 ∧ w.extractLsb' 4 7 = 0 then
      .ok (.divF (w.extractLsb' 11 4) (w.extractLsb' 0 4))
    else .error .fixedBits
  else .error .unknownOpcode

/-- The first word of an instruction, written field by field from R133's pattern, high bits first. The ignored bits of `NOP` are
written as zeros. -/
def encodeWord1 : Instr → ProgWord
  | .nop => 0x000000
  | .bra n => 0x37#8 ++ n
  | .goto t => 0x04#8 ++ t.extractLsb' 0 15 ++ 0#1
  | .gotoWord2 n => 0#17 ++ n
  | .returnSub => 0x060000
  | .retfie => 0x064000
  | .repeatLit k => 0x09#8 ++ 0#2 ++ k
  | .repeatReg s => 0x09800#20 ++ s
  | .disi k => 0xFC#8 ++ 0#2 ++ k
  | .reset => 0xFE0000
  | .pwrsav m => 0x7F2000#23 ++ encodePower m
  | .sftacLit x k => 0xC8#8 ++ encodeAcc x ++ 1#9 ++ k
  | .sftacReg x s => 0xC8#8 ++ encodeAcc x ++ 0#11 ++ s
  | .push f => 0xF8#8 ++ f ++ 0#1
  | .pop f => 0xF9#8 ++ f ++ 0#1
  | .movdLoad d p s => 0xBE#8 ++ 0#5 ++ d ++ 0#1 ++ encodeMode p ++ s
  | .movdStore q d s => 0xBE#8 ++ 2#2 ++ encodeMode q ++ d ++ 0#3 ++ s ++ 0#1
  | .btscF b f => 0xAF#8 ++ b.extractLsb' 0 3 ++ f ++ b.extractLsb' 3 1
  | .btscW b p s => 0xA7#8 ++ b ++ 0#5 ++ encodeMode p ++ s
  | .btssF b f => 0xAE#8 ++ b.extractLsb' 0 3 ++ f ++ b.extractLsb' 3 1
  | .btssW b p s => 0xA6#8 ++ b ++ 0#5 ++ encodeMode p ++ s
  | .divS t v w s => 0xD8#8 ++ 0#1 ++ t ++ v ++ encodeWidth w ++ 0#2 ++ s
  | .divU t v w s => 0xD8#8 ++ 1#1 ++ t ++ v ++ encodeWidth w ++ 0#2 ++ s
  | .divF t s => 0xD9#8 ++ 0#1 ++ t ++ 0#7 ++ s

/-- The second word of an instruction; zero where it has none (only `GOTO` has one). -/
def encodeWord2 : Instr → ProgWord
  | .goto t => 0#17 ++ t.extractLsb' 15 7
  | _ => 0

/-- The program words of an instruction, in order. -/
def encode (i : Instr) : List ProgWord :=
  match i with
  | .goto _ => [encodeWord1 i, encodeWord2 i]
  | _ => [encodeWord1 i]

/-- The instruction the decoder reads from bits numbered as spec/opcode_table.json numbers them: bit 0 is the least significant bit of
the first word, a second word's bits count on from bit 24, and every bit above `nbits` is 0. -/
def decodeTableWord (nbits w : Nat) : Option Instr :=
  let bits := w % 2 ^ nbits
  match decode (BitVec.ofNat 24 bits) (BitVec.ofNat 24 (bits / 2 ^ 24)) with
  | .ok i => some i
  | .error _ => none

/-- `mask` and `match` of an instruction's row of opcode_table.json (R138): a 1 at every fixed bit, and the fixed bits' values. -/
def opcodeRow : Instr → ProgWord × ProgWord
  | .nop => (0xFF0000, 0x000000)
  | .bra _ => (0xFF0000, 0x370000)
  | .goto _ => (0xFF0001, 0x040000)
  | .gotoWord2 _ => (0xFFFF80, 0x000000)
  | .returnSub => (0xFFFFFF, 0x060000)
  | .retfie => (0xFFFFFF, 0x064000)
  | .repeatLit _ => (0xFFC000, 0x090000)
  | .repeatReg _ => (0xFFFFF0, 0x098000)
  | .disi _ => (0xFFC000, 0xFC0000)
  | .reset => (0xFFFFFF, 0xFE0000)
  | .pwrsav _ => (0xFFFFFE, 0xFE4000)
  | .sftacLit _ _ => (0xFF7FC0, 0xC80040)
  | .sftacReg _ _ => (0xFF7FF0, 0xC80000)
  | .push _ => (0xFF0001, 0xF80000)
  | .pop _ => (0xFF0001, 0xF90000)
  | .movdLoad _ _ _ => (0xFFF880, 0xBE0000)
  | .movdStore _ _ _ => (0xFFC071, 0xBE8000)
  | .btscF _ _ => (0xFF0000, 0xAF0000)
  | .btscW _ _ _ => (0xFF0F80, 0xA70000)
  | .btssF _ _ => (0xFF0000, 0xAE0000)
  | .btssW _ _ _ => (0xFF0F80, 0xA60000)
  | .divS _ _ _ _ => (0xFF8030, 0xD80000)
  | .divU _ _ _ _ => (0xFF8030, 0xD88000)
  | .divF _ _ => (0xFF87F0, 0xD90000)

end Sys2Proof
end

