-- ==== Sys2Proof/Machine/State.lean ====
section
/-! DEFINITION. The state of the machine (`10_state.md`), as plain data, its value after Reset (R66), and the reasons a step can
stop. -/

namespace Sys2Proof.Machine

/-- A memory: (address, byte) pairs in one canonical form, addresses strictly rising. An address that is not listed has no value
here; what the machine reads there is said by the reads of Ops.lean (logs 4, 5). -/
abbrev Memory := List Host.Cell

/-- The canonical form. No byte is "no value", so no entry equals what an unlisted address holds. -/
abbrev Memory.wf (m : Memory) : Prop := (m.map Prod.fst).Pairwise (· < ·)

/-- Hidden state `run_state` (R62). -/
inductive RunState where
  | running
  | sleep
  | idle
  deriving DecidableEq, Repr

/-- The loop a REPEAT has set up (R176, D31; log 14). -/
structure RepeatLoop where
  /-- Where the repeated instruction stands. -/
  target : PC
  /-- How many iterations follow the one that is next to run. -/
  left : Word
  /-- Whether an iteration has run already: the divide-by-zero check belongs to the first (R177). -/
  started : Bool
  deriving DecidableEq, Repr

/-- The three reasons of R225 for an oscillator failure. -/
inductive OscCause where
  /-- The FSCM is enabled and has detected a loss of the system clock source. -/
  | clockLoss
  /-- A loss of PLL lock during normal operation using the PLL. -/
  | pllLockLoss
  /-- The FSCM is enabled and the PLL fails to achieve lock at a power-on Reset. -/
  | pllNoLockAtPor
  deriving DecidableEq, Repr

/-- Why a device Reset happens (R282). -/
inductive ResetCause where
  /-- The hard trap conflict (R228), which sets TRAPR. -/
  | trapConflict
  /-- The `RESET` instruction (R170). -/
  | software
  /-- A Reset from outside: power-on and every other kind (R282). -/
  | external
  deriving DecidableEq, Repr

/-- The input events, which occur between steps (R4, R9, R225, R230, R252, R282). -/
inductive InputEvent where
  /-- `PeripheralEvent(i)`: source `i` requests an interrupt. -/
  | peripheral (irq : Nat)
  /-- A sample of external interrupt pin INTk. -/
  | pin (k : Fin 5) (level : Bool)
  /-- `OscFailEvent`. -/
  | oscFail (cause : OscCause)
  /-- `ExternalReset`. -/
  | externalReset
  deriving DecidableEq, Repr

/-- The four implemented traps (R201, R206). -/
inductive Trap where
  | oscFail
  | addrErr
  | stkErr
  | mathErr
  deriving DecidableEq, Repr

/-- The state: everything `10_state.md` names, then the model's own fields. -/
structure State where
  /-- W0 to W15; W15 is the stack pointer (R20). -/
  w : Vector Word 16
  /-- The program counter (R21). -/
  pc : PC
  /-- SR (R22). -/
  sr : Word
  /-- CORCON (R24). -/
  corcon : Word
  /-- INTCON1 (R28). -/
  intcon1 : Word
  /-- INTCON2 (R30), without bit 14, which is not a stored bit (R31). -/
  intcon2 : Word
  /-- IFS0 to IFS2 (R32 to R35). -/
  ifs : Vector Word 3
  /-- IEC0 to IEC2 (R36 to R39). -/
  iec : Vector Word 3
  /-- IPC0 to IPC11 (R40 to R53). -/
  ipc : Vector Word 12
  /-- DISICNT<13:0> (R57). -/
  disicnt : BitVec 14
  /-- SPLIM (R58). -/
  splim : Word
  /-- `SPLIM_ARMED` (R58, R62). -/
  splimArmed : Bool
  /-- TRAPR, RCON<15> (R59). -/
  trapr : Bool
  /-- CF, OSCCON<3> (R60). -/
  cf : Bool
  /-- Accumulator A (R61). -/
  accA : Acc
  /-- Accumulator B (R61). -/
  accB : Acc
  /-- `run_state` (R62). -/
  runState : RunState
  /-- `pin_prev[0..4]` (R62, R252). -/
  pinPrev : BitVec 5
  /-- `accept_age` (R62, R235). -/
  acceptAge : Nat
  /-- The temporary buffer register's PC (R62, R300). -/
  bufferPc : PC
  /-- The temporary buffer register's SRL (R62, R300). -/
  bufferSrl : Byte
  /-- The REPEAT loop, if one is set up (R176; log 14). -/
  loop : Option RepeatLoop
  /-- Data memory, 0x0800 and above (R101). -/
  data : Memory
  /-- Program memory (R100): word `a` has its three bytes at keys `3 * (a / 2)` and the two above, low byte first. -/
  prog : Memory
  /-- The device's parameters (R4; log 2). No step changes them. -/
  device : Device
  /-- The model's own: how many free values have been drawn (log 1). -/
  draws : Nat
  /-- The model's own: how many device Resets have made data memory unknown again (log 4). -/
  epoch : Nat
  /-- The model's own: the environment's schedule (log 7). An event takes a step of its own; `none` lets the machine step. -/
  inputs : List (Option InputEvent)
  deriving DecidableEq, Repr

/-- Why the machine stops with a fault. -/
inductive Fault where
  /-- Raised by the instruction fetch of Boundary.lean: the program image lists no word at the PC. Safe (log 5): the chip would execute
  whatever that word holds. -/
  | unprogrammed
  deriving DecidableEq, Repr

/-- Why the model gives a step no meaning. -/
inductive Refusal where
  /-- Raised by an arm of `exec` whose instruction has no meaning yet. Safe. -/
  | notModelled (mnemonic : String)
  /-- Raised by the instruction fetch: the word is not in the opcode table (R135). Safe. -/
  | illegalWord (why : Reject)
  /-- Raised by a data access below 0x0800 at an address where the spec lists no register (U10, R64). Safe. -/
  | unlistedRegister
  /-- Raised by a software write of an IPC field while its source is enabled and interrupts can be taken (U1, R291, D13). Safe. -/
  | priorityChangeWhileEnabled
  deriving DecidableEq, Repr

/-- The state after Reset (R66, R281, V172). W0 to W14, SPLIM, the accumulators, TRAPR, `pin_prev` and the temporary buffer have
no value in the spec: 0 here (log 3). Nothing is placed in either memory (logs 4, 5). -/
def State.reset : State where
  w := #v[0, 0, 0, 0, 0, 0, 0, 0, 0, 0, 0, 0, 0, 0, 0, 0x0800]
  pc := 0
  sr := 0x0000
  corcon := 0x0020
  intcon1 := 0x0000
  intcon2 := 0x0000
  ifs := #v[0, 0, 0]
  iec := #v[0, 0, 0]
  ipc := #v[0x4444, 0x4444, 0x4444, 0x4444, 0x4444, 0x4444, 0x4444, 0x4444, 0x4444, 0x4444, 0x4444, 0x0004]
  disicnt := 0
  splim := 0
  splimArmed := false
  trapr := false
  cf := false
  accA := 0
  accB := 0
  runState := .running
  pinPrev := 0
  acceptAge := 0
  bufferPc := 0
  bufferSrl := 0
  loop := none
  data := []
  prog := []
  device := Device.default
  draws := 0
  epoch := 0
  inputs := []

end Sys2Proof.Machine

namespace Sys2Proof.Config

/-- `CYCLES(instr, state)` of R4, less one: the parameter function of the instruction and the state it starts in, with no body (D9, log 9).
It is never read for RETFIE, whose count the spec gives. -/
opaque extraCycles : (i : Instr) → (s : Machine.State) → Nat

end Sys2Proof.Config
end

