-- ==== Sys2Proof/Machine/Flags.lean ====
section
/-! DEFINITION. Bit fields, the CPU priority (R26), the access codes of register bits (R6), and every flag computation the spec
gives: OA and OB, the overflow events, the flags left free. -/

namespace Sys2Proof.Machine

/-- `v` with bit `i` set to `b`. -/
def setBit {n : Nat} (v : BitVec n) (i : Nat) (b : Bool) : BitVec n :=
  if b then v ||| BitVec.twoPow n i else v &&& ~~~BitVec.twoPow n i

/-- A software write of `new` to the bits of `mask` (R6): `rw` bits take the written value, `rc` bits are cleared by a written 0
and keep their state under a written 1, every other bit keeps its state. -/
def accessWrite (rw rc mask old new : Word) : Word :=
  (old &&& ~~~((rw ||| rc) &&& mask)) ||| (new &&& (rw &&& mask)) ||| (old &&& new &&& (rc &&& mask))

/-- IPL3, `CORCON<3>` (R25). -/
def State.ipl3 (s : State) : Bool := s.corcon.getLsbD 3

/-- `IPL<2:0>`, `SR<7:5>` (R22). -/
def State.ipl (s : State) : BitVec 3 := s.sr.extractLsb' 5 3

/-- The CPU priority level: `{CORCON[3], SR[7:5]}` (R26). -/
def State.cpuIpl (s : State) : Nat := (BitVec.ofBool s.ipl3 ++ s.ipl).toNat

/-- NSTDIS, `INTCON1<15>` (R28). -/
def State.nstdis (s : State) : Bool := s.intcon1.getLsbD 15

/-- ALTIVT, `INTCON2<15>` (R30). -/
def State.altivt (s : State) : Bool := s.intcon2.getLsbD 15

/-- SRL, `SR<7:0>` (R5). -/
def State.srl (s : State) : Byte := s.sr.extractLsb' 0 8

/-- RA, `SR<4>` (R22). -/
def State.ra (s : State) : Bool := s.sr.getLsbD 4

/-- SR with `IPL<2:0>` replaced. -/
def withIpl (sr : Word) (l : BitVec 3) : Word := sr.extractLsb' 8 8 ++ l ++ sr.extractLsb' 0 5

/-- SR with SRL replaced (R152: the upper byte is not restored). -/
def withSrl (sr : Word) (b : Byte) : Word := sr.extractLsb' 8 8 ++ b

/-- Level, R206. -/
def Trap.level : Trap → Nat
  | .oscFail => 14
  | .addrErr => 13
  | .stkErr => 12
  | .mathErr => 11

/-- Vector number, R201. -/
def Trap.vector : Trap → Nat
  | .oscFail => 1
  | .addrErr => 2
  | .stkErr => 3
  | .mathErr => 4

/-- The status flag's bit of INTCON1, R212. -/
def Trap.flagBit : Trap → Nat
  | .oscFail => 1
  | .addrErr => 3
  | .stkErr => 2
  | .mathErr => 4

/-- Hard traps are those of level 13 to 15 (R207). -/
def Trap.hard (t : Trap) : Bool := decide (13 ≤ t.level)

/-- The trap's status flag (R29). -/
def State.trapFlag (s : State) (t : Trap) : Bool := s.intcon1.getLsbD t.flagBit

/-- The trap's status flag set: what hardware does when the condition is detected (R212). -/
def State.flagTrap (s : State) (t : Trap) : State := { s with intcon1 := setBit s.intcon1 t.flagBit true }

/-- 31-bit saturation of an accumulator (R218): SATA or SATB with ACCSAT 0. The bits are the spec's general knowledge (N9, log 12). -/
def State.sat31 (s : State) : AccSel → Bool
  | .a => s.corcon.getLsbD 7 && !s.corcon.getLsbD 4
  | .b => s.corcon.getLsbD 6 && !s.corcon.getLsbD 4

/-- 39-bit saturation of an accumulator (R218): SATA or SATB with ACCSAT 1. -/
def State.sat39 (s : State) : AccSel → Bool
  | .a => s.corcon.getLsbD 7 && s.corcon.getLsbD 4
  | .b => s.corcon.getLsbD 6 && s.corcon.getLsbD 4

/-- The bit of SR that records the accumulator's overflow: OA is 15, OB is 14 (R22). -/
def ovfBit : AccSel → Nat
  | .a => 15
  | .b => 14

/-- The bit of SR named SA or SB (R22). -/
def satBit : AccSel → Nat
  | .a => 13
  | .b => 12

/-- The enable of the accumulator's overflow trap: OVATE is `INTCON1<10>`, OVBTE is `INTCON1<9>` (R218). -/
def State.ovfTrapEnabled (s : State) : AccSel → Bool
  | .a => s.intcon1.getLsbD 10
  | .b => s.intcon1.getLsbD 9

/-- COVTE, `INTCON1<8>` (R218). -/
def State.covte (s : State) : Bool := s.intcon1.getLsbD 8

/-- The overflow event of an accumulator operation that carries out of bit 31 (R218). -/
def State.overflow (s : State) (x : AccSel) (carry31 : Bool) : Bool := carry31 && !s.sat31 x

/-- The catastrophic overflow event of an accumulator operation that carries out of bit 39 (R218). -/
def State.catastrophic (s : State) (x : AccSel) (carry39 : Bool) : Bool := carry39 && !(s.sat31 x || s.sat39 x)

/-- Whether R218 raises the arithmetic error trap for an operation with these carries. -/
def State.overflowTraps (s : State) (x : AccSel) (carry31 carry39 : Bool) : Bool :=
  (s.overflow x carry31 && s.ovfTrapEnabled x) || (s.catastrophic x carry39 && s.covte)

/-- Whether a shift of the accumulator by `k` (positive right, R175) carries out of bit `n - 1`: only a left shift moves bits
upward, and it carries out when the exact product does not fit `n` bits. DEDUCED (log 12). -/
def shiftCarries (n : Nat) (v : Acc) (k : Int) : Bool :=
  decide (k < 0) && (let exact := v.toInt * 2 ^ (-k).toNat
    decide (exact < -(2 ^ (n - 1))) || decide (2 ^ (n - 1) ≤ exact))

/-- The accumulator shifted by `k`: right for a positive `k`, left for a negative one. `fill` supplies the vacated bits, whose value the
spec does not give (R175; log 12). -/
def shiftAcc (v fill : Acc) (k : Int) : Acc :=
  if 0 ≤ k then (v >>> k.toNat) ||| (fill &&& ~~~(BitVec.allOnes 40 >>> k.toNat))
  else (v <<< (-k).toNat) ||| (fill &&& ~~~(BitVec.allOnes 40 <<< (-k).toNat))

/-- SR with the flags of the DSP engine that no rule states after an operation on an accumulator (SA or SB, OAB, SAB) set to free bits (R175,
R186, N19; log 12). -/
def freeDspFlags (sr : Word) (x : AccSel) (draw : Nat) : Word :=
  setBit (setBit (setBit sr (satBit x) (Config.freeBit draw)) 11 (Config.freeBit (draw + 1))) 10 (Config.freeBit (draw + 2))

/-- SR with N, OV, Z, C set to free bits: the flags of a divide (R177, U8; log 13). -/
def freeMcuFlags (sr : Word) (draw : Nat) : Word :=
  setBit (setBit (setBit (setBit sr 3 (Config.freeBit draw)) 2 (Config.freeBit (draw + 1))) 1 (Config.freeBit (draw + 2))) 0
    (Config.freeBit (draw + 3))

/-- Whether a clear of MATHERR is blocked (R226, D32): an enabled accumulator overflow still stands. -/
def State.mathErrHeld (s : State) : Bool :=
  (s.sr.getLsbD 15 && s.intcon1.getLsbD 10) || (s.sr.getLsbD 14 && s.intcon1.getLsbD 9)

end Sys2Proof.Machine
end

