-- ==== Sys2Proof/Machine/Ops.lean ====
section
/-! DEFINITION. The named operations of the machine: memories, registers, traps and Reset, data accesses with their checks, the
stack, taking an exception and returning from one, and the end of an instruction. -/

namespace Sys2Proof.Machine

/-! ### Memories -/

/-- The byte a memory lists at an address. -/
def Memory.read (m : Memory) (a : Nat) : Option Byte :=
  match m with
  | [] => none
  | (k, b) :: rest => if k = a then some b else Memory.read rest a

/-- The memory with the byte at `a` listed as `b`, in canonical form. -/
def Memory.write (m : Memory) (a : Nat) (b : Byte) : Memory :=
  match m with
  | [] => [(a, b)]
  | (k, c) :: rest =>
    if a < k then (a, b) :: (k, c) :: rest
    else if a = k then (a, b) :: rest
    else (k, c) :: Memory.write rest a b

/-- Whether an address lies in one of the ranges. -/
def inRanges (rs : List (Nat × Nat)) (a : Nat) : Bool := rs.any fun r => decide (r.1 ≤ a) && decide (a ≤ r.2)

/-- `PROG_IMPLEMENTED(a)` (R4). 0x000004 to 0x0000FE, the vector tables, always are (D30). -/
def Device.progImplemented (d : Device) (a : Nat) : Bool := (decide (4 ≤ a) && decide (a ≤ 0xFE)) || inRanges d.progRanges a

/-- `DATA_IMPLEMENTED(a)` (R4). -/
def Device.dataImplemented (d : Device) (a : Nat) : Bool := inRanges d.dataRanges a

/-- `X_IMPLEMENTED(a)`: false on all of Y space (R224). -/
def Device.xImplemented (d : Device) (a : Nat) : Bool := Device.dataImplemented d a && !inRanges d.ySpace a

/-- `Y_IMPLEMENTED(a)`: false on all of X space (R224). -/
def Device.yImplemented (d : Device) (a : Nat) : Bool := Device.dataImplemented d a && inRanges d.ySpace a

/-- The byte of data memory at `a`: what is listed, else a free value (U4; log 4). -/
def State.dataByte (s : State) (a : Nat) : Byte := (s.data.read a).getD (Config.ramByte s.epoch a)

/-- The key of byte `j` of the program word at `a`. -/
def progKey (a j : Nat) : Nat := 3 * (a / 2) + j

/-- The byte of program memory at a key: what is listed, else a free value (R132; log 5). -/
def State.progByte (s : State) (key : Nat) : Byte := (s.prog.read key).getD (Config.imageByte key)

/-- `ProgRead(a)` (R7). -/
def State.progRead (s : State) (a : Nat) : ProgWord :=
  s.progByte (progKey a 2) ++ s.progByte (progKey a 1) ++ s.progByte (progKey a 0)

/-- Whether the image lists the program word at `a`. -/
def State.progListed (s : State) (a : Nat) : Bool :=
  (s.prog.read (progKey a 0)).isSome && (s.prog.read (progKey a 1)).isSome && (s.prog.read (progKey a 2)).isSome

/-- A program memory with the word at `a` programmed. -/
def progWrite (m : Memory) (a : Nat) (v : ProgWord) : Memory :=
  ((m.write (progKey a 0) (v.extractLsb' 0 8)).write (progKey a 1) (v.extractLsb' 8 8)).write (progKey a 2)
    (v.extractLsb' 16 8)

/-! ### Interrupt sources -/

/-- The implemented bits of IFSk and IECk: an absent source's bits read 0 and ignore writes (D12, R65). -/
def irqMask (d : Device) (k : Nat) : Word := (d.irqImplemented >>> (16 * k)).setWidth 16

/-- The implemented bits of IPCk: one 3-bit field a nibble (R40, R52, D12). -/
def ipcMask (d : Device) (k : Nat) : Word :=
  let field (j : Nat) : Word := if d.irqImplemented.getLsbD (4 * k + j) then 0x7 <<< (4 * j) else 0
  field 0 ||| field 1 ||| field 2 ||| field 3

/-- `flag(i)` (R54). -/
def State.irqFlag (s : State) (i : Nat) : Bool := (s.ifs[i / 16]?.getD 0).getLsbD (i % 16)

/-- `enable(i)` (R54). -/
def State.irqEnable (s : State) (i : Nat) : Bool := (s.iec[i / 16]?.getD 0).getLsbD (i % 16)

/-- `level(i)` (R54, R232). -/
def State.irqLevel (s : State) (i : Nat) : Nat := ((s.ipc[i / 4]?.getD 0).extractLsb' (4 * (i % 4)) 3).toNat

/-- Whether the device has IRQ `i` (`IRQ_IMPLEMENTED`). -/
def State.irqPresent (s : State) (i : Nat) : Bool := s.device.irqImplemented.getLsbD i

/-- `PeripheralEvent(i)` (R35, R230): the flag becomes 1, whether or not the source is enabled. -/
def State.requestIrq (s : State) (i : Nat) : State :=
  if s.irqPresent i then
    { s with ifs := s.ifs.setIfInBounds (i / 16) (setBit (s.ifs[i / 16]?.getD 0) (i % 16) true) }
  else s

/-! ### Reset and traps -/

/-- `DeviceReset(cause)` (R281). What R66 leaves unspecified is a free value (U4, D21; log 6); program memory and the device do not
change; TRAPR becomes 1 for a trap conflict. -/
def deviceReset (cause : ResetCause) (s : State) : State :=
  { State.reset with
    w := #v[Config.freeWord s.draws, Config.freeWord (s.draws + 1), Config.freeWord (s.draws + 2), Config.freeWord (s.draws + 3),
      Config.freeWord (s.draws + 4), Config.freeWord (s.draws + 5), Config.freeWord (s.draws + 6), Config.freeWord (s.draws + 7),
      Config.freeWord (s.draws + 8), Config.freeWord (s.draws + 9), Config.freeWord (s.draws + 10), Config.freeWord (s.draws + 11),
      Config.freeWord (s.draws + 12), Config.freeWord (s.draws + 13), Config.freeWord (s.draws + 14), 0x0800]
    splim := Config.freeWord (s.draws + 15)
    pinPrev := (Config.freeWord (s.draws + 16)).setWidth 5
    accA := Config.freeAcc (s.draws + 17)
    accB := Config.freeAcc (s.draws + 18)
    trapr := if cause = .trapConflict then true else Config.freeBit (s.draws + 19)
    bufferPc := (Config.freePc (s.draws + 20)) ++ 0#1
    bufferSrl := (Config.freeWord (s.draws + 21)).setWidth 8
    prog := s.prog
    device := s.device
    draws := s.draws + 22
    epoch := s.epoch + 1
    inputs := s.inputs }

/-- `hard_conflict(L)` (R228, D14): `cpu_ipl` at or above the level, or a higher trap pending. -/
def State.hardConflict (s : State) (level : Nat) : Bool :=
  decide (level ≤ s.cpuIpl) ||
    [Trap.oscFail, .addrErr, .stkErr, .mathErr].any fun t =>
      decide (level < t.level) && s.trapFlag t && decide (s.cpuIpl < t.level)

/-- Whether raising `t` now resets the device (R212). -/
def State.conflicts (s : State) (t : Trap) : Bool := t.hard && s.hardConflict t.level

/-- `raise t` outside an instruction (R212). -/
def State.raiseTrap (s : State) (t : Trap) : State :=
  if s.conflicts t then deviceReset .trapConflict s else s.flagTrap t

/-! ### Inside a step -/

/-- The state inside a step, with what lasts for that step only. -/
structure Cpu where
  st : State
  /-- The step has raised an address error: its data-space writes are inhibited (R223). -/
  inhibit : Bool := false
  /-- The step has written DISICNT, which is then not counted down (R151). -/
  disiWritten : Bool := false
  deriving DecidableEq, Repr

/-- How a part of a step ends: it goes on with a value, the device was Reset (nothing of the step follows), or the model refuses. -/
inductive Run (α : Type) where
  | ok (x : α) (c : Cpu)
  | reset (s : State)
  | stop (r : Refusal)

/-- One part of a step after another. -/
def Run.bind {α β : Type} (m : Run α) (f : α → Cpu → Run β) : Run β :=
  match m with
  | .ok x c => f x c
  | .reset s => .reset s
  | .stop r => .stop r

/-- The outcome of a whole step. -/
def Run.outcome (m : Run Unit) : Host.Outcome State Fault Refusal :=
  match m with
  | .ok _ c => .next c.st
  | .reset s => .next s
  | .stop r => .refused r

/-- The same step with its state changed. -/
def Cpu.update (c : Cpu) (f : State → State) : Cpu := { c with st := f c.st }

/-- A free 16-bit value (log 1). -/
def Cpu.drawWord (c : Cpu) : Word × Cpu :=
  (Config.freeWord c.st.draws, c.update fun s => { s with draws := s.draws + 1 })

/-- A free bit (log 1). -/
def Cpu.drawBit (c : Cpu) : Bool × Cpu :=
  (Config.freeBit c.st.draws, c.update fun s => { s with draws := s.draws + 1 })

/-- `raise t` (R212). -/
def raise (t : Trap) (c : Cpu) : Run Unit :=
  if c.st.conflicts t then .reset (deviceReset .trapConflict c.st) else .ok () (c.update fun s => s.flagTrap t)

/-- A soft trap raised: it never conflicts (R228). -/
def softTrap (t : Trap) (c : Cpu) : Cpu := c.update fun s => s.flagTrap t

/-- An address error in this step: `raise AddressError`, and the step's data writes are inhibited (R223). -/
def addressError (c : Cpu) : Run Unit := raise .addrErr { c with inhibit := true }

/-- The traps raised one after another. -/
def raiseAll (ts : List Trap) (c : Cpu) : Run Unit :=
  match ts with
  | [] => .ok () c
  | t :: rest => (raise t c).bind fun _ c => raiseAll rest c

/-! ### Working registers -/

/-- `W[i]`. -/
def State.getW (s : State) (r : WReg) : Word := s.w.get r.toFin

/-- `W[i] <- v`, without the check of R214. -/
def State.putW (s : State) (r : WReg) (v : Word) : State := { s with w := s.w.set r.toNat v }

/-- `W[i] <- v`: a write of W15 below 0x0800 raises the stack error (R214). -/
def writeW (r : WReg) (v : Word) (c : Cpu) : Cpu :=
  let c := c.update fun s => s.putW r v
  if r = 15 ∧ v < 0x0800 then softTrap .stkErr c else c

/-- `W[r] + d` as an address: it wraps at 16 bits, and when `r` is W15 a sum outside data space raises the stack error (R216). -/
def pointerAdd (r : WReg) (d : Int) (c : Cpu) : Word × Cpu :=
  let sum := ((c.st.getW r).toNat : Int) + d
  (BitVec.ofInt 16 sum, if r = 15 ∧ (sum < 0 ∨ 0xFFFF < sum) then softTrap .stkErr c else c)

/-! ### Registers in data space -/

/-- The registers that stand in data space (R20, R64, R102). -/
inductive Reg where
  | w (r : WReg)
  | splim
  | sr
  | corcon
  | disicnt
  | rcon
  | osccon
  | intcon1
  | intcon2
  | ifs (k : Fin 3)
  | iec (k : Fin 3)
  | ipc (k : Fin 12)
  deriving DecidableEq, Repr

/-- The registers of Table 6-3, at their addresses (R64). -/
def tableReg (a : Nat) : Option Reg :=
  if a = 0x80 then some .intcon1
  else if a = 0x82 then some .intcon2
  else if h : 0x84 ≤ a ∧ a ≤ 0x89 then some (.ifs ⟨(a - 0x84) / 2, by omega⟩)
  else if h : 0x8C ≤ a ∧ a ≤ 0x91 then some (.iec ⟨(a - 0x8C) / 2, by omega⟩)
  else if h : 0x94 ≤ a ∧ a ≤ 0xAB then some (.ipc ⟨(a - 0x94) / 2, by omega⟩)
  else none

/-- The register at the even address `a`: Table 6-3's, else one of those whose address is a parameter (R4). -/
def regAt (d : Device) (a : Nat) : Option Reg :=
  match tableReg a with
  | some r => some r
  | none =>
    if a = d.srAddr then some .sr
    else if a = d.corconAddr then some .corcon
    else if a = d.disicntAddr then some .disicnt
    else if a = d.splimAddr then some .splim
    else if a = d.rconAddr then some .rcon
    else if a = d.oscconAddr then some .osccon
    else if d.w15Addr ≤ a + 30 ∧ a ≤ d.w15Addr then some (.w (BitVec.ofNat 4 ((a + 30 - d.w15Addr) / 2)))
    else none

/-- What a software read of a register returns (R6): unimplemented bits 0. RCON and OSCCON have bits the spec does not name: free
(log 18). -/
def readReg (r : Reg) (c : Cpu) : Word × Cpu :=
  match r with
  | .w i => (c.st.getW i, c)
  | .splim => (c.st.splim, c)
  | .sr => (c.st.sr, c)
  | .corcon => (c.st.corcon, c)
  | .disicnt => (c.st.disicnt.setWidth 16, c)
  | .rcon => (setBit c.drawWord.1 15 c.st.trapr, c.drawWord.2)
  | .osccon => (setBit c.drawWord.1 3 c.st.cf, c.drawWord.2)
  | .intcon1 => (c.st.intcon1, c)
  | .intcon2 => (setBit c.st.intcon2 14 (decide (c.st.disicnt ≠ 0)), c)
  | .ifs k => (c.st.ifs.get k &&& irqMask c.st.device k, c)
  | .iec k => (c.st.iec.get k &&& irqMask c.st.device k, c)
  | .ipc k => (c.st.ipc.get k &&& ipcMask c.st.device k, c)

/-- The bits of `old` with those of `mask` replaced by `new`'s. -/
def mergeBits (mask old new : Word) : Word := (old &&& ~~~mask) ||| (new &&& mask)

/-- Whether a write of `v` to the bits `mask` of IPCk changes a priority on the fly (R291, D13, U1): it writes the field of an enabled
source while user interrupts can be taken. A DISI window covers it unless the field's old or new level is 7. -/
def State.priorityHazard (s : State) (k : Fin 12) (mask v : Word) : Bool :=
  decide (s.cpuIpl < 7) && [0, 1, 2, 3].any fun j =>
    mask.getLsbD (4 * j) && s.irqPresent (4 * k + j) && s.irqEnable (4 * k + j) &&
      !(decide (s.disicnt ≠ 0) && decide (s.irqLevel (4 * k + j) ≠ 7) && decide ((v.extractLsb' (4 * j) 3).toNat ≠ 7))

/-- The traps that a software write of INTCON1 requests when `TRAP_FLAG_SW_SET` (D6): those whose flag goes from 0 to 1. The order of
the two hard ones is free (V131; log 19). -/
def requestedTraps (old mask v : Word) (oscFirst : Bool) : List Trap :=
  ([Trap.mathErr, .stkErr] ++ (if oscFirst then [Trap.oscFail, .addrErr] else [Trap.addrErr, .oscFail])).filter fun t =>
    mask.getLsbD t.flagBit && v.getLsbD t.flagBit && !old.getLsbD t.flagBit

/-- A software write of INTCON1 (R28, R29, R226, D6, D32): a written 0 clears a flag, MATHERR only when no cause stands. The conflict
of a requested hard trap is judged after the clears of the same write, so an OSCFAIL that it clears is not pending: DESIGN CHOICE (log 41). An
address error that a written 1 requests inhibits no write of the same instruction: DESIGN CHOICE (log 37). -/
def writeIntcon1 (mask v : Word) (c : Cpu) : Run Unit :=
  let old := c.st.intcon1
  let rc : Word := if c.st.mathErrHeld then 0x000E else 0x001E
  let c1 := c.update fun s => { s with intcon1 := accessWrite 0x8700 rc mask old v }
  if c.st.device.trapFlagSwSet then
    raiseAll (requestedTraps old mask v c1.drawBit.1) c1.drawBit.2
  else .ok () c1

/-- A software write of `v` to the bits `mask` of a register, under its access codes (R6). `whole` says that it is a word write. All 16 bits
of SPLIM are written, bit 0 too, which R58 leaves open: DESIGN CHOICE (log 34). -/
def writeReg (r : Reg) (whole : Bool) (mask v : Word) (c : Cpu) : Run Unit :=
  match r with
  | .w i => .ok () (writeW i (mergeBits mask (c.st.getW i) v) c)
  | .splim => .ok () (c.update fun s =>
      { s with splim := mergeBits mask s.splim v, splimArmed := s.splimArmed || whole })
  | .sr => .ok () (c.update fun s =>
      { s with sr := accessWrite (if s.nstdis then 0x000F else 0x00EF) 0x3400 mask s.sr v })
  | .corcon => .ok () (c.update fun s => { s with corcon := accessWrite 0x18F7 0x0008 mask s.corcon v })
  | .disicnt =>
    if c.st.disicnt = 0 then .ok () c
    else .ok () { c.update (fun s =>
      { s with disicnt := (mergeBits mask (s.disicnt.setWidth 16) v).setWidth 14 }) with disiWritten := true }
  | .rcon =>
    if mask.getLsbD 15 then
      .ok () (c.drawBit.2.update fun s => { s with trapr := v.getLsbD 15 && (s.trapr || c.drawBit.1) })
    else .ok () c
  | .osccon =>
    if mask.getLsbD 3 then .ok () (c.drawBit.2.update fun s => { s with cf := c.drawBit.1 }) else .ok () c
  | .intcon1 => writeIntcon1 mask v c
  | .intcon2 => .ok () (c.update fun s => { s with intcon2 := accessWrite 0x801F 0 mask s.intcon2 v })
  | .ifs k => .ok () (c.update fun s =>
      { s with ifs := s.ifs.set k (accessWrite (irqMask s.device k) 0 mask (s.ifs.get k) v) })
  | .iec k => .ok () (c.update fun s =>
      { s with iec := s.iec.set k (accessWrite (irqMask s.device k) 0 mask (s.iec.get k) v) })
  | .ipc k =>
    if c.st.priorityHazard k mask v then .stop .priorityChangeWhileEnabled
    else .ok () (c.update fun s =>
      { s with ipc := s.ipc.set k (accessWrite (ipcMask s.device k) 0 mask (s.ipc.get k) v) })

/-! ### Data accesses

Below 0x0800 an access meets a register or is refused, whatever DATA_IMPLEMENTED says there: DESIGN CHOICE (log 39). A fetch of the MAC
class is the exception (`macFetch`, log 42). -/

/-- The stack limit check on an effective address formed from W15 (R215). -/
def stackLimit (viaW15 : Bool) (ea : Word) (c : Cpu) : Cpu :=
  if viaW15 && c.st.splimArmed && decide (c.st.splim < ea) then softTrap .stkErr c else c

/-- A read that raises the address error and returns a free value (R221, U6). -/
def failedRead (c : Cpu) : Run Word :=
  (addressError c).bind fun _ c => .ok c.drawWord.1 c.drawWord.2

/-- The word of data memory at an even address, low byte at the lower address (R105). -/
def State.dataWord (s : State) (a : Word) : Word := s.dataByte (a.toNat + 1) ++ s.dataByte a.toNat

/-- `MemRead(ea, 2)` with its checks: the stack limit (R215), alignment and implementation (R221), the registers below 0x0800 (R102, U10;
log 39). -/
def readWord (ea : Word) (viaW15 : Bool) (c : Cpu) : Run Word :=
  let c := stackLimit viaW15 ea c
  if ea.getLsbD 0 then failedRead c
  else if ea < 0x0800 then
    match regAt c.st.device ea.toNat with
    | some r => .ok (readReg r c).1 (readReg r c).2
    | none => .stop .unlistedRegister
  else if Device.dataImplemented c.st.device ea.toNat then .ok (c.st.dataWord ea) c
  else failedRead c

/-- Data memory with the word at an even address replaced. -/
def State.storeWord (s : State) (a v : Word) : State :=
  { s with data := (s.data.write a.toNat (v.extractLsb' 0 8)).write (a.toNat + 1) (v.extractLsb' 8 8) }

/-- `MemWrite(ea, 2, v)` with its checks: a misaligned one raises the address error and writes nothing (R221, R223); one to unimplemented
data space has no effect (D27); none is performed in a step that has raised an address error (R223). Below 0x0800, log 39. -/
def writeWord (ea v : Word) (viaW15 : Bool) (c : Cpu) : Run Unit :=
  let c := stackLimit viaW15 ea c
  if ea.getLsbD 0 then addressError c
  else if c.inhibit then .ok () c
  else if ea < 0x0800 then
    match regAt c.st.device ea.toNat with
    | some r => writeReg r true 0xFFFF v c
    | none => .stop .unlistedRegister
  else if Device.dataImplemented c.st.device ea.toNat then .ok () (c.update fun s => s.storeWord ea v)
  else .ok () c

/-- The even address of the register that holds a byte. -/
def regBase (ea : Word) : Nat := 2 * (ea.toNat / 2)

/-- `MemRead(ea, 1)`: byte accesses are never misaligned (R104); a byte of a register is that half of it (R105). Below 0x0800, log 39. -/
def readByte (ea : Word) (viaW15 : Bool) (c : Cpu) : Run Byte :=
  let c := stackLimit viaW15 ea c
  if ea < 0x0800 then
    match regAt c.st.device (regBase ea) with
    | some r => .ok ((readReg r c).1.extractLsb' (if ea.getLsbD 0 then 8 else 0) 8) (readReg r c).2
    | none => .stop .unlistedRegister
  else if Device.dataImplemented c.st.device ea.toNat then .ok (c.st.dataByte ea.toNat) c
  else (failedRead c).bind fun v c => .ok (v.setWidth 8) c

/-- `MemWrite(ea, 1, v)`: the other half of a register is unchanged (R105), and SPLIM is not armed (R58). Below 0x0800, log 39. -/
def writeByte (ea : Word) (v : Byte) (viaW15 : Bool) (c : Cpu) : Run Unit :=
  let c := stackLimit viaW15 ea c
  if c.inhibit then .ok () c
  else if ea < 0x0800 then
    match regAt c.st.device (regBase ea) with
    | some r => writeReg r false (if ea.getLsbD 0 then 0xFF00 else 0x00FF) (v ++ v) c
    | none => .stop .unlistedRegister
  else if Device.dataImplemented c.st.device ea.toNat then
    .ok () (c.update fun s => { s with data := s.data.write ea.toNat v })
  else .ok () c

/-- The OR of a byte into a byte of data space, one instruction (R185: 0xE0 into SRL disables user interrupts). Log 28. -/
def orByte (ea : Word) (v : Byte) (c : Cpu) : Run Unit :=
  (readByte ea false c).bind fun old c => writeByte ea (old ||| v) false c

/-- A word fetch of the MAC class from X space or Y space (R184, R224): the other space counts as unimplemented. Log 28. Below 0x0800 too an
address that is not implemented in its space raises the address error (R221, R224), whether a register stands there or not, although R64 and
U10 refuse an access that meets none (0x008A): DESIGN CHOICE (log 42). -/
def macFetch (ySpace : Bool) (ea : Word) (viaW15 : Bool) (c : Cpu) : Run Word :=
  if (if ySpace then Device.yImplemented c.st.device ea.toNat else Device.xImplemented c.st.device ea.toNat) then
    readWord ea viaW15 c
  else failedRead (stackLimit viaW15 ea c)

/-! ### The stack -/

/-- `Push16(v)` (R7, R108): store at W15, then add 2. -/
def push16 (v : Word) (c : Cpu) : Run Unit :=
  (writeWord (c.st.getW 15) v true c).bind fun _ c =>
    .ok () (writeW 15 (pointerAdd 15 2 c).1 (pointerAdd 15 2 c).2)

/-- `Pop16()` (R7, R108): subtract 2 from W15, then load. -/
def pop16 (c : Cpu) : Run Word :=
  readWord (pointerAdd 15 (-2) c).1 true (writeW 15 (pointerAdd 15 (-2) c).1 (pointerAdd 15 (-2) c).2)

/-! ### Accumulators -/

/-- The contents of an accumulator. -/
def State.getAcc (s : State) : AccSel → Acc
  | .a => s.accA
  | .b => s.accB

def State.putAcc (s : State) (x : AccSel) (v : Acc) : State :=
  match x with
  | .a => { s with accA := v }
  | .b => { s with accB := v }

/-- What every operation on an accumulator does to OA or OB and to the arithmetic error trap (R186, R218). -/
def accumulatorEvents (x : AccSel) (carry31 carry39 : Bool) (c : Cpu) : Cpu :=
  let c1 := c.update fun s => { s with sr := setBit s.sr (ovfBit x) (s.overflow x carry31) }
  if c.st.overflowTraps x carry31 carry39 then softTrap .mathErr c1 else c1

/-- SA or SB, OAB and SAB after an operation on an accumulator: free, since no rule says how they come out of one (N19; log 12). -/
def drawDspFlags (x : AccSel) (c : Cpu) : Cpu :=
  c.update fun s => { s with sr := freeDspFlags s.sr x s.draws, draws := s.draws + 3 }

/-- The "dummy operation" on an accumulator, such as adding 0, that clears OA or OB (R186, R226) and leaves SA or SB, OAB and SAB free (N19;
log 12). Log 28. -/
def dummyAccumulatorOperation (x : AccSel) (c : Cpu) : Cpu := drawDspFlags x (accumulatorEvents x false false c)

/-! ### The end of an instruction -/

/-- The PC `d` bytes from here. Past either end of program space the spec gives no address (N12): a free one (log 17). -/
def movePc (d : Int) (c : Cpu) : Cpu :=
  let sum := (c.st.pc.toNat : Int) + d
  if 0 ≤ sum ∧ sum < 2 ^ 23 then c.update fun s => { s with pc := BitVec.ofInt 23 sum }
  else c.update fun s => { s with pc := Config.freePc s.draws ++ 0#1, draws := s.draws + 1 }

/-- The PC moved past an instruction of `words` words (R21). -/
def advance (words : Nat) (c : Cpu) : Cpu := movePc (2 * words) c

/-- DISICNT after `n` cycles (R151): it stops at 0. -/
def countDown (n : Nat) (cnt : BitVec 14) : BitVec 14 :=
  if cnt = 0 then 0 else BitVec.ofNat 14 (cnt.toNat - n)

/-- The count-down of `n` cycles, unless the step has written DISICNT itself (R151, R293). -/
def spend (n : Nat) (c : Cpu) : Cpu :=
  if c.disiWritten then c else c.update fun s => { s with disicnt := countDown n s.disicnt }

/-- `CYCLES(i, s)` (R4, R151): 3 for RETFIE, for every other instruction a parameter of at least 1 (log 9). -/
def cycles (i : Instr) (s : State) : Nat := if i = .retfie then 3 else 1 + Config.extraCycles i s

/-- The end of the instruction `i`, begun in the state `s`: its cycles counted (R151). -/
def retire (i : Instr) (s : State) (c : Cpu) : Cpu := spend (cycles i s) c

/-- A step's beginning. -/
def start (s : State) : Cpu := { st := s }

/-! ### Taking an exception and returning from one -/

/-- What asks for an exception: a trap, or an interrupt by its IRQ number. -/
inductive Candidate where
  | trap (t : Trap)
  | irq (i : Nat)
  deriving DecidableEq, Repr

/-- Vector number: IRQ `i` has vector `i + 8` (R200, R202). -/
def Candidate.vector : Candidate → Nat
  | .trap t => t.vector
  | .irq i => i + 8

/-- `vector_addr(n)` (R203). -/
def State.vectorAddr (s : State) (n : Nat) : Nat := (if s.altivt then 0x000084 else 0x000004) + 2 * n

/-- The second word of the frame: `{SRL, IPL3, PC<22:16>}` (R238). -/
def frameHigh (srl : Byte) (ipl3 : Bool) (ret : PC) : Word := srl ++ BitVec.ofBool ipl3 ++ ret.extractLsb' 16 7

/-- The address in a frame: `{hi[6:0], lo[15:1], 0}` (R152). -/
def frameAddress (hi lo : Word) : PC := hi.extractLsb' 0 7 ++ lo.extractLsb' 1 15 ++ 0#1

/-- The level `L` of a candidate (R206, R232). -/
def State.candidateLevel (s : State) : Candidate → Nat
  | .trap t => t.level
  | .irq i => s.irqLevel i

/-- The CPU priority that the entry of a candidate of level `level` sets (R237, R239, R240): a trap's own level; an interrupt's level, or 7
when NSTDIS is 1. -/
def enterPriority (cand : Candidate) (level : Nat) (s : State) : State :=
  match cand with
  | .trap _ => { s with corcon := setBit s.corcon 3 true, sr := withIpl s.sr (BitVec.ofNat 3 level) }
  | .irq _ => { s with sr := withIpl s.sr (if s.nstdis then 7 else BitVec.ofNat 3 level) }

/-- The vector fetch (R203, R130): bits 22:1 of the word. -/
def loadVector (cand : Candidate) (s : State) : State :=
  { s with pc := (s.progRead (s.vectorAddr cand.vector)).extractLsb' 1 22 ++ 0#1 }

/-- TAKING AN EXCEPTION, the entry sequence (R237, R238, R246): the two pushes with their checks, the priority, the vector. One step of
four cycles. The level is the candidate's before the pushes; NSTDIS, ALTIVT and DISICNT are read after them (R237). Where the first push lands
on SR or CORCON (W15 below 0x0800, 0x0042 say) the second word holds SRL and IPL3 as they are after that push, the order of R237's pseudocode,
although R238's table says "as before entry": DESIGN CHOICE (log 43). -/
def takeException (cand : Candidate) (s : State) : Host.Outcome State Fault Refusal :=
  ((push16 (s.pc.extractLsb' 0 16) (start { s with bufferPc := s.pc, bufferSrl := s.srl })).bind fun _ c =>
    (push16 (frameHigh c.st.srl c.st.ipl3 s.pc) c).bind fun _ c =>
      .ok () (c.update fun t => { loadVector cand (enterPriority cand (s.candidateLevel cand) t) with
        acceptAge := 0, disicnt := countDown 4 t.disicnt })).outcome

/-- Two words popped: `hi` first, `lo` second (R152, R174). -/
def popFrame (c : Cpu) (f : (hi lo : Word) → Cpu → Cpu) : Run Unit :=
  (pop16 c).bind fun hi c => (pop16 c).bind fun lo c => .ok () (f hi lo c)

/-- RETURNING FROM AN EXCEPTION: what RETFIE restores from the two words (R152). -/
def restoreFrame (hi lo : Word) (s : State) : State :=
  { s with
    sr := withSrl s.sr (hi.extractLsb' 8 8)
    corcon := setBit s.corcon 3 (hi.getLsbD 7)
    pc := frameAddress hi lo }

end Sys2Proof.Machine
end

