-- ==== Sys2Proof/Machine/Operands.lean ====
section
/-! DEFINITION. Operand forms: register pairs, the addressing modes of MOV.D and the bit tests, the tested bit, the skipped
instruction, the shift count, the repeat count. -/

namespace Sys2Proof.Machine

/-- The lower register of pair `k`: W(2k) (R133: "destination register pair / 2"). -/
def pairLow (k : BitVec 3) : WReg := k ++ 0#1

/-- The upper register of pair `k`: W(2k+1). -/
def pairHigh (k : BitVec 3) : WReg := k ++ 1#1

/-- The pair a register named directly belongs to: its number without bit 0 (log 11). -/
def pairOf (r : WReg) : BitVec 3 := r.extractLsb' 1 3

/-- The effective address of a register-indirect operand of `size` bytes, and the step with the register modified (log 10): a
pre-modification comes into the address, a post-modification does not. The register is modified before the access, so an access to the
register's own data address meets the modified value: DESIGN CHOICE (log 36). -/
def pointer (m : AddrMode) (r : WReg) (size : Int) (c : Cpu) : Word × Cpu :=
  match m with
  | .direct | .indirect | .unused6 | .unused7 => (c.st.getW r, c)
  | .postDec => (c.st.getW r, writeW r (pointerAdd r (-size) c).1 (pointerAdd r (-size) c).2)
  | .postInc => (c.st.getW r, writeW r (pointerAdd r size c).1 (pointerAdd r size c).2)
  | .preDec => ((pointerAdd r (-size) c).1, writeW r (pointerAdd r (-size) c).1 (pointerAdd r (-size) c).2)
  | .preInc => ((pointerAdd r size c).1, writeW r (pointerAdd r size c).1 (pointerAdd r size c).2)

/-- An instruction whose addressing mode the family leaves unused resets the device. PRESUMED (log 10). -/
def unusedMode {α : Type} (c : Cpu) : Run α := .reset (deviceReset .software c.st)

/-- The address two bytes on, for the upper word of a double word: formed from W15 it is checked for wrap (R216). After 0xFFFE comes 0x0000:
DESIGN CHOICE (log 38). -/
def upperAddress (viaW15 : Bool) (ea : Word) (c : Cpu) : Word × Cpu :=
  (ea + 2, if viaW15 && decide (ea = 0xFFFE ∨ ea = 0xFFFF) then softTrap .stkErr c else c)

/-- A word operand (R179). -/
def readOperand (m : AddrMode) (r : WReg) (c : Cpu) : Run Word :=
  match m with
  | .direct => .ok (c.st.getW r) c
  | .unused6 | .unused7 => unusedMode c
  | .indirect | .postDec | .postInc | .preDec | .preInc =>
    readWord (pointer m r 2 c).1 (decide (r = 15)) (pointer m r 2 c).2

/-- The two words at `ea`, the lower word at the lower address (R178; log 11). -/
def readDouble (ea : Word) (viaW15 : Bool) (c : Cpu) : Run (Word × Word) :=
  (readWord ea viaW15 c).bind fun lo c =>
    (readWord (upperAddress viaW15 ea c).1 viaW15 (upperAddress viaW15 ea c).2).bind fun hi c => .ok (lo, hi) c

/-- A double-word source operand (R178). -/
def readPair (m : AddrMode) (r : WReg) (c : Cpu) : Run (Word × Word) :=
  match m with
  | .direct => .ok (c.st.getW (pairLow (pairOf r)), c.st.getW (pairHigh (pairOf r))) c
  | .unused6 | .unused7 => unusedMode c
  | .indirect | .postDec | .postInc | .preDec | .preInc =>
    readDouble (pointer m r 4 c).1 (decide (r = 15)) (pointer m r 4 c).2

/-- Pair `k` written, the lower register first. -/
def writePairRegs (k : BitVec 3) (lo hi : Word) (c : Cpu) : Cpu := writeW (pairHigh k) hi (writeW (pairLow k) lo c)

/-- Two words stored at `ea`, the lower word at the lower address. -/
def writeDouble (ea lo hi : Word) (viaW15 : Bool) (c : Cpu) : Run Unit :=
  (writeWord ea lo viaW15 c).bind fun _ c =>
    writeWord (upperAddress viaW15 ea c).1 hi viaW15 (upperAddress viaW15 ea c).2

/-- A double-word destination operand (R178). -/
def writePair (m : AddrMode) (r : WReg) (lo hi : Word) (c : Cpu) : Run Unit :=
  match m with
  | .direct => .ok () (writePairRegs (pairOf r) lo hi c)
  | .unused6 | .unused7 => unusedMode c
  | .indirect | .postDec | .postInc | .preDec | .preInc =>
    writeDouble (pointer m r 4 c).1 lo hi (decide (r = 15)) (pointer m r 4 c).2

/-- The data address of a 15-bit field: address bits 15:1 (R133, `PUSH f`). -/
def fileAddress (f : BitVec 15) : Word := f ++ 0#1

/-- The word address of the file form of a bit test: address bits 12:1 (R133, `BTSC f`). -/
def bitFileAddress (f : BitVec 12) : Word := 0#3 ++ f ++ 0#1

/-- Whether a program word is the first of a two-word instruction (R133): `GOTO`; and `CALL` and `DO`, the latter with a literal
or a register count, whose patterns are PRESUMED, the family's (log 16). -/
def isTwoWord (w : ProgWord) : Bool :=
  let op := w.extractLsb' 16 8
  (decide (op = 0x04) && !w.getLsbD 0) || (decide (op = 0x02) && !w.getLsbD 0) ||
    (decide (op = 0x08) && (decide (w.extractLsb' 14 2 = 0) || decide (w.extractLsb' 4 12 = 0x800)))

/-- How many words a taken skip passes over: its own, and those of the instruction after it (R179). The word after it is read without a
check: where it is not listed, not implemented or past the end of program space its unlisted bytes are free, and nothing is raised. DESIGN
CHOICE (log 40). -/
def State.skipWords (s : State) : Nat := if isTwoWord (s.progRead (s.pc.toNat + 2)) then 3 else 2

/-- The PC after a bit test: past the next instruction when `skip`, else at it (R179, R180). -/
def skipIf (skip : Bool) (c : Cpu) : Cpu := if skip then advance c.st.skipWords c else advance 1 c

/-- The shift count: a signed 6-bit value, the literal or the low bits of a register (R134). -/
def shiftCount (k : BitVec 6) : Int := k.toInt

/-- The low 6 bits of a register, as SFTAC reads its count (R134). -/
def registerShift (v : Word) : BitVec 6 := v.setWidth 6

end Sys2Proof.Machine
end

