-- ==== Sys2Proof/Machine/Arithmetic.lean ====
section
/-! DEFINITION. The instructions that can raise the arithmetic error trap: SFTAC and the divides (R175, R177). -/

namespace Sys2Proof.Machine

/-- What a shift leaves in the accumulator: the shifted bits, the vacated ones free; a free value when saturation replaces an
overflowing result (R175, R218, U8; log 12). -/
def shiftResult (s : State) (x : AccSel) (k : Int) : Acc :=
  let v := s.getAcc x
  if (s.sat31 x && shiftCarries 32 v k) || (s.sat39 x && shiftCarries 40 v k) then Config.freeAcc s.draws
  else shiftAcc v (Config.freeAcc s.draws) k

/-- The SFTAC instruction `i` by `k` (R175): beyond 16 either way the arithmetic error is raised and the accumulator is not written; otherwise
it is shifted, with the events of any accumulator operation (R186, R218). -/
def shiftAccumulator (i : Instr) (x : AccSel) (k : Int) (s : State) : Host.Outcome State Fault Refusal :=
  let c := start s
  .next (retire i s (advance 1 (
    if 16 < k ∨ k < -16 then softTrap .mathErr c
    else drawDspFlags x ((accumulatorEvents x (shiftCarries 32 (s.getAcc x) k) (shiftCarries 40 (s.getAcc x) k) c).update fun t =>
      { t.putAcc x (shiftResult s x k) with draws := s.draws + 1 })))).st

/-- `SFTAC Acc, #Slit6` (R175). -/
def execSftacLit (x : AccSel) (k : BitVec 6) (s : State) : Host.Outcome State Fault Refusal :=
  shiftAccumulator (.sftacLit x k) x (shiftCount k) s

/-- `SFTAC Acc, Wb` (R175). -/
def execSftacReg (x : AccSel) (r : WReg) (s : State) : Host.Outcome State Fault Refusal :=
  shiftAccumulator (.sftacReg x r) x (shiftCount (registerShift (s.getW r))) s

/-- Whether the REPEAT loop is at the instruction at the PC, with RA as the loop left it (R176; log 14). -/
def State.loopLive (s : State) : Option RepeatLoop :=
  match s.loop with
  | some l => if l.target = s.pc ∧ (s.ra = true ∨ l.left = 0) then some l else none
  | none => none

/-- Whether a divide at the PC is in its first iteration; without a REPEAT it is its own first (R177). -/
def State.firstIteration (s : State) : Bool :=
  match s.loopLive with
  | some l => !l.started
  | none => true

/-- One iteration of the divide `i` (R177): the divide-by-zero check in the first; W0, W1, N, OV, Z and C free (U8; log 13). -/
def divideStep (i : Instr) (divisor : Word) (s : State) : Host.Outcome State Fault Refusal :=
  let c := start s
  let c := if s.firstIteration && decide (divisor = 0) then softTrap .mathErr c else c
  .next (retire i s (advance 1 (c.update fun t =>
    { (t.putW 0 (Config.freeWord s.draws)).putW 1 (Config.freeWord (s.draws + 1)) with
      sr := freeMcuFlags t.sr (s.draws + 2)
      draws := s.draws + 6 }))).st

/-- `DIV.S Wm, Wn` and `DIV.SD Wm, Wn` (R177). -/
def execDivS (t v : WReg) (w : DivWidth) (r : WReg) (s : State) : Host.Outcome State Fault Refusal :=
  divideStep (.divS t v w r) (s.getW r) s

/-- `DIV.U Wm, Wn` and `DIV.UD Wm, Wn` (R177). -/
def execDivU (t v : WReg) (w : DivWidth) (r : WReg) (s : State) : Host.Outcome State Fault Refusal :=
  divideStep (.divU t v w r) (s.getW r) s

/-- `DIVF Wm, Wn` (R177). -/
def execDivF (t r : WReg) (s : State) : Host.Outcome State Fault Refusal := divideStep (.divF t r) (s.getW r) s

end Sys2Proof.Machine
end

