-- ==== Sys2Proof/Machine/Boundary.lean ====
section
/-! DEFINITION. What happens between instructions: input events, arbitration, the acceptance decision (R235), wake-up, the instruction
fetch, and the REPEAT loop. -/

namespace Sys2Proof.Machine

/-! ### Input events -/

/-- The IRQ of external interrupt pin INTk (R252). -/
def pinIrq (k : Fin 5) : Nat :=
  match k with
  | 0 => 0
  | 1 => 16
  | 2 => 23
  | 3 => 36
  | 4 => 37

/-- Whether the device's configuration lets the oscillator failure happen (R225). -/
def Device.oscFailPossible (d : Device) : OscCause → Bool
  | .clockLoss => d.fscmEnabled
  | .pllLockLoss => d.pllInUse
  | .pllNoLockAtPor => d.fscmEnabled && d.pllInUse

/-- A sample `level` of pin INTk: an edge of the polarity INTkEP selects at this moment requests the interrupt (R252, D24). -/
def State.samplePin (s : State) (k : Fin 5) (level : Bool) : State :=
  let negative := s.intcon2.getLsbD k
  let before := s.pinPrev.getLsbD k
  let edge := if negative then before && !level else !before && level
  { (if edge then s.requestIrq (pinIrq k) else s) with pinPrev := setBit s.pinPrev k level }

/-- An input event (R4, R225, R230, R252, R282). -/
def State.deliver (s : State) : InputEvent → State
  | .peripheral i => s.requestIrq i
  | .pin k level => s.samplePin k level
  | .oscFail cause =>
    if Device.oscFailPossible s.device cause then ({ s with cf := true }).raiseTrap .oscFail else s
  | .externalReset => deviceReset .external s

/-! ### Arbitration -/

/-- Whether a trap is pending (R213): its flag is 1 and its level above the CPU's. -/
def State.trapPending (s : State) (t : Trap) : Bool := s.trapFlag t && decide (s.cpuIpl < t.level)

/-- The pending trap of greatest level (R211). -/
def State.pendingTrap (s : State) : Option Trap :=
  [Trap.oscFail, .addrErr, .stkErr, .mathErr].find? s.trapPending

/-- `disi_blocks(i)` (R233). -/
def State.disiBlocks (s : State) (i : Nat) : Bool := decide (s.disicnt ≠ 0) && decide (s.irqLevel i ≤ 6)

/-- `eligible(i)` (R234). -/
def State.eligible (s : State) (i : Nat) : Bool :=
  s.irqPresent i && s.irqFlag i && s.irqEnable i && decide (s.cpuIpl < s.irqLevel i) && !s.disiBlocks i

/-- The better of two sources, the first having the lower number: the greater level, the first at equal levels (R234). -/
def State.better (s : State) (best : Option Nat) (i : Nat) : Option Nat :=
  match best with
  | none => some i
  | some b => if s.irqLevel b < s.irqLevel i then some i else some b

/-- `winner` (R234). -/
def State.winner (s : State) : Option Nat := ((List.range 45).filter s.eligible).foldl s.better none

/-- The candidate of R235: the pending trap if there is one, else the winning interrupt. -/
def State.candidate (s : State) : Option Candidate :=
  match s.pendingTrap with
  | some t => some (.trap t)
  | none => s.winner.map .irq

/-- How many instructions may still run before the candidate is entered (R235, R236). -/
def Device.skidMax (d : Device) : Candidate → Nat
  | .trap t => if t.hard then 0 else d.softTrapSkidMax
  | .irq _ => d.intSkidMax

/-- `exists i: flag(i) = 1 and enable(i) = 1 and level(i) >= 1` (R250). -/
def State.wakes (s : State) : Bool :=
  (List.range 45).any fun i => s.irqPresent i && s.irqFlag i && s.irqEnable i && decide (1 ≤ s.irqLevel i)

/-! ### The decision -/

/-- What the machine does at a boundary. -/
inductive Decision where
  /-- Asleep, with nothing to wake it. -/
  | wait
  /-- The wake-up step (R250). -/
  | wake
  /-- Exception entry, the choice it took (if any) drawn. -/
  | enter (cand : Candidate) (s : State)
  /-- An instruction, the state brought up to its start. -/
  | run (s : State)
  deriving DecidableEq, Repr

/-- The acceptance decision (R235). The choice of its step 4 is free, and each choice is a draw of its own (log 8). -/
def State.decision (s : State) : Decision :=
  match s.runState with
  | .running =>
    match s.candidate with
    | none => .run { s with acceptAge := 0 }
    | some cand =>
      if s.acceptAge < Device.skidMax s.device cand then
        if Config.skid s.draws then .run { s with acceptAge := s.acceptAge + 1, draws := s.draws + 1 }
        else .enter cand { s with draws := s.draws + 1 }
      else .enter cand s
  | .sleep | .idle => if s.wakes then .wake else .wait

/-- Where an instruction comes from: the words at the PC and after it, decoded. A word at the PC that the image does not list is a fault
(log 5). The second word of a GOTO is read without a check: where it is not listed, not implemented or past the end of program space its
bytes are free, and nothing is raised. DESIGN CHOICE (log 35). -/
def State.fetch (s : State) : Host.Outcome Instr Fault Refusal :=
  if s.progListed s.pc.toNat then
    match decode (s.progRead s.pc.toNat) (s.progRead (s.pc.toNat + 2)) with
    | .ok i => .next i
    | .error why => .refused (.illegalWord why)
  else .fault .unprogrammed

/-- An iteration of a REPEAT loop has run, from `before` to `after` (R176; log 14): while iterations are left the PC goes back to the
repeated instruction. An instruction that set up a loop of its own, or reset the device, is left as it is. -/
def continueLoop (before after : State) : State :=
  match before.loopLive with
  | none => after
  | some l =>
    if after.loop = some l then
      if l.left = 0 then { after with loop := none }
      else
        { after with
          loop := some { l with left := l.left - 1, started := true }
          sr := setBit after.sr 4 (decide (l.left ≠ 1))
          pc := l.target }
    else after

/-- `continueLoop` on a step's outcome. -/
def afterIteration (before : State) (o : Host.Outcome State Fault Refusal) : Host.Outcome State Fault Refusal :=
  match o with
  | .next t => .next (continueLoop before t)
  | .fault e => .fault e
  | .refused r => .refused r

end Sys2Proof.Machine
end

