-- ==== Sys2Proof/Machine/BitTest.lean ====
section
/-! DEFINITION. The bit tests that skip: BTSC and BTSS (R179, R180). -/

namespace Sys2Proof.Machine

/-- The file form, of the instruction `i`: the word at an even address is read and bit `bit` tested (R133); `want` is the value that skips. -/
def testFile (i : Instr) (want : Bool) (bit : BitVec 4) (f : BitVec 12) (s : State) : Host.Outcome State Fault Refusal :=
  ((readWord (bitFileAddress f) false (start s)).bind fun v c =>
    .ok () (retire i s (skipIf (v.getLsbD bit.toNat == want) c))).outcome

/-- The register form, of the instruction `i`: the operand is read under its addressing mode and bit `bit` tested. -/
def testOperand (i : Instr) (want : Bool) (bit : BitVec 4) (p : AddrMode) (r : WReg) (s : State) :
    Host.Outcome State Fault Refusal :=
  ((readOperand p r (start s)).bind fun v c =>
    .ok () (retire i s (skipIf (v.getLsbD bit.toNat == want) c))).outcome

/-- `BTSC f, #bit4`: skip if clear (R179). -/
def execBtscF (bit : BitVec 4) (f : BitVec 12) (s : State) : Host.Outcome State Fault Refusal :=
  testFile (.btscF bit f) false bit f s

/-- `BTSC Ws, #bit4` (R179). -/
def execBtscW (bit : BitVec 4) (p : AddrMode) (r : WReg) (s : State) : Host.Outcome State Fault Refusal :=
  testOperand (.btscW bit p r) false bit p r s

/-- `BTSS f, #bit4`: skip if set (R180). -/
def execBtssF (bit : BitVec 4) (f : BitVec 12) (s : State) : Host.Outcome State Fault Refusal :=
  testFile (.btssF bit f) true bit f s

/-- `BTSS Ws, #bit4` (R180). -/
def execBtssW (bit : BitVec 4) (p : AddrMode) (r : WReg) (s : State) : Host.Outcome State Fault Refusal :=
  testOperand (.btssW bit p r) true bit p r s

end Sys2Proof.Machine
end

