-- ==== Sys2Proof/Machine/Control.lean ====
section
/-! DEFINITION. Control transfer: NOP, BRA, GOTO, RETURN, RESET, PWRSAV, REPEAT. -/

namespace Sys2Proof.Machine

/-- `NOP`: the PC moves on and nothing else (R183). -/
def execNop (s : State) : Host.Outcome State Fault Refusal := .next (retire .nop s (advance 1 (start s))).st

/-- The second word of `GOTO`, executed by itself, is a `NOP` (R133, R138; log 22). -/
def execGotoWord2 (n : BitVec 7) (s : State) : Host.Outcome State Fault Refusal :=
  .next (retire (.gotoWord2 n) s (advance 1 (start s))).st

/-- The end of `i`, begun in `s`, a jump to a literal target: an unimplemented one raises the address error, and the jump completes (R172,
R222 scenario 4). -/
def jumpLiteral (i : Instr) (s : State) (c : Cpu) : Run Unit :=
  (if Device.progImplemented c.st.device c.st.pc.toNat then .ok () c else addressError c).bind fun _ c =>
    .ok () (retire i s c)

/-- `BRA Expr`: target `(pc + 2) + 2 * n` (R173). -/
def execBra (n : BitVec 16) (s : State) : Host.Outcome State Fault Refusal :=
  (jumpLiteral (.bra n) s (movePc (2 + 2 * n.toInt) (start s))).outcome

/-- `GOTO Expr` (R172). -/
def execGoto (target : BitVec 22) (s : State) : Host.Outcome State Fault Refusal :=
  (jumpLiteral (.goto target) s ((start s).update fun s => { s with pc := target ++ 0#1 })).outcome

/-- `RETURN`: two pops; SRL and IPL3 stay (R174). -/
def execReturn (s : State) : Host.Outcome State Fault Refusal :=
  (popFrame (start s) fun hi lo c => retire .returnSub s (c.update fun s => { s with pc := frameAddress hi lo })).outcome

/-- `RESET` (R170). -/
def execReset (s : State) : Host.Outcome State Fault Refusal := .next (deviceReset .software s)

/-- `PWRSAV #lit1` (R171). -/
def execPwrsav (mode : PowerMode) (s : State) : Host.Outcome State Fault Refusal :=
  let entered : RunState := match mode with
    | .sleep => .sleep
    | .idle => .idle
  .next (retire (.pwrsav mode) s ((advance 1 (start s)).update fun s => { s with runState := entered })).st

/-- The REPEAT instruction `i` of `count`: the next instruction runs `count + 1` times, RA is 1 while iterations remain after the next (R176;
log 14). -/
def startLoop (i : Instr) (count : Word) (s : State) : Host.Outcome State Fault Refusal :=
  .next (retire i s ((advance 1 (start s)).update fun s =>
    { s with
      loop := some { target := s.pc, left := count, started := false }
      sr := setBit s.sr 4 (decide (count ≠ 0)) })).st

/-- `REPEAT #lit14` (R176). -/
def execRepeatLit (k : BitVec 14) (s : State) : Host.Outcome State Fault Refusal := startLoop (.repeatLit k) (k.setWidth 16) s

/-- `REPEAT Wn`: the count is the register's value (R176; log 15). -/
def execRepeatReg (r : WReg) (s : State) : Host.Outcome State Fault Refusal := startLoop (.repeatReg r) (s.getW r) s

end Sys2Proof.Machine
end

