-- ==== Sys2Proof/Machine/InterruptControl.lean ====
section
/-! DEFINITION. The interrupt control instructions: DISI and RETFIE (`40_interrupt_control_instructions.md`). -/

namespace Sys2Proof.Machine

/-- `DISI #lit14`: DISICNT takes the literal; the count-down starts with the next step (R150, R151). -/
def execDisi (k : BitVec 14) (s : State) : Host.Outcome State Fault Refusal :=
  .next ((advance 1 (start s)).update fun s => { s with disicnt := k }).st

/-- `RETFIE`, three cycles (R152, R303). Pops that raise the address error restore free values; where these put the CPU at level 13 or above,
R210 and R213 disagree on what follows, and the trap waits: DESIGN CHOICE (log 33). -/
def execRetfie (s : State) : Host.Outcome State Fault Refusal :=
  (popFrame (start s) fun hi lo c => retire .retfie s (c.update (restoreFrame hi lo))).outcome

end Sys2Proof.Machine
end

