-- ==== Sys2Proof/Machine/Move.lean ====
section
/-! DEFINITION. PUSH, POP and MOV.D (R178, R181, R182). -/

namespace Sys2Proof.Machine

/-- `PUSH f`: the word at `f` on the stack (R181). -/
def execPush (f : BitVec 15) (s : State) : Host.Outcome State Fault Refusal :=
  ((readWord (fileAddress f) false (start s)).bind fun v c =>
    (push16 v c).bind fun _ c => .ok () (retire (.push f) s (advance 1 c))).outcome

/-- `POP f`: the word popped, written to `f` as software writes it (R182). -/
def execPop (f : BitVec 15) (s : State) : Host.Outcome State Fault Refusal :=
  ((pop16 (start s)).bind fun v c =>
    (writeWord (fileAddress f) v false c).bind fun _ c => .ok () (retire (.pop f) s (advance 1 c))).outcome

/-- `MOV.D Ws, Wnd` (R178). -/
def execMovdLoad (d : BitVec 3) (p : AddrMode) (r : WReg) (s : State) : Host.Outcome State Fault Refusal :=
  ((readPair p r (start s)).bind fun v c =>
    .ok () (retire (.movdLoad d p r) s (advance 1 (writePairRegs d v.1 v.2 c)))).outcome

/-- `MOV.D Wns, Wd` (R178): the source pair is read before the pointer moves (log 11). -/
def execMovdStore (q : AddrMode) (d : WReg) (k : BitVec 3) (s : State) : Host.Outcome State Fault Refusal :=
  ((writePair q d (s.getW (pairLow k)) (s.getW (pairHigh k)) (start s)).bind fun _ c =>
    .ok () (retire (.movdStore q d k) s (advance 1 c))).outcome

end Sys2Proof.Machine
end

