-- ==== Sys2Proof/Machine/Dispatch.lean ====
section
/-! DEFINITION. One arm per instruction, each one call of its meaning. -/

namespace Sys2Proof.Machine

def exec (i : Instr) (s : State) : Host.Outcome State Fault Refusal :=
  match i with
  | .nop => Sys2Proof.Machine.execNop s
  | .bra n => Sys2Proof.Machine.execBra n s
  | .goto target => Sys2Proof.Machine.execGoto target s
  | .gotoWord2 n => Sys2Proof.Machine.execGotoWord2 n s
  | .returnSub => Sys2Proof.Machine.execReturn s
  | .retfie => Sys2Proof.Machine.execRetfie s
  | .repeatLit k => Sys2Proof.Machine.execRepeatLit k s
  | .repeatReg r => Sys2Proof.Machine.execRepeatReg r s
  | .disi k => Sys2Proof.Machine.execDisi k s
  | .reset => Sys2Proof.Machine.execReset s
  | .pwrsav mode => Sys2Proof.Machine.execPwrsav mode s
  | .sftacLit acc k => Sys2Proof.Machine.execSftacLit acc k s
  | .sftacReg acc r => Sys2Proof.Machine.execSftacReg acc r s
  | .push f => Sys2Proof.Machine.execPush f s
  | .pop f => Sys2Proof.Machine.execPop f s
  | .movdLoad d p r => Sys2Proof.Machine.execMovdLoad d p r s
  | .movdStore q d k => Sys2Proof.Machine.execMovdStore q d k s
  | .btscF bit f => Sys2Proof.Machine.execBtscF bit f s
  | .btscW bit p r => Sys2Proof.Machine.execBtscW bit p r s
  | .btssF bit f => Sys2Proof.Machine.execBtssF bit f s
  | .btssW bit p r => Sys2Proof.Machine.execBtssW bit p r s
  | .divS t v w r => Sys2Proof.Machine.execDivS t v w r s
  | .divU t v w r => Sys2Proof.Machine.execDivU t v w r s
  | .divF t r => Sys2Proof.Machine.execDivF t r s

end Sys2Proof.Machine
end

