-- ==== Sys2Proof/Machine/Step.lean ====
section
/-! DEFINITION. One step: an input event, or the machine's own boundary decision and what it decides. -/

namespace Sys2Proof.Machine

/-- The instruction at the PC: at an unimplemented address the address error is raised instead (R222 scenario 5, D27). -/
def runInstruction (s : State) : Host.Outcome State Fault Refusal :=
  if Device.progImplemented s.device s.pc.toNat then
    match s.fetch with
    | .next i => afterIteration s (exec i s)
    | .fault e => .fault e
    | .refused r => .refused r
  else .next (s.raiseTrap .addrErr)

/-- The machine's own step (R235, R250). -/
def machineStep (s : State) : Host.Outcome State Fault Refusal :=
  match s.decision with
  | .wait => .next s
  | .wake => .next { s with runState := .running }
  | .enter cand s => takeException cand s
  | .run s => runInstruction s

/-- One step (R9, D1): the event at the head of the schedule, or a step of the machine. -/
def step (s : State) : Host.Outcome State Fault Refusal :=
  match s.inputs with
  | some e :: rest => .next (({ s with inputs := rest }).deliver e)
  | none :: rest => machineStep { s with inputs := rest }
  | [] => machineStep s

/-- The instruction whose bits are `w`, numbered as opcode_table.json numbers them, programmed at the PC; the bits above `nbits` are 0,
up to the second word. -/
def State.withFetchWord (s : State) (nbits w : Nat) : State :=
  let bits := w % 2 ^ nbits
  { s with
    prog := progWrite (progWrite s.prog s.pc.toNat (BitVec.ofNat 24 bits)) (s.pc.toNat + 2)
      (BitVec.ofNat 24 (bits / 2 ^ 24)) }

end Sys2Proof.Machine
end

