-- ==== Sys2Proof/Safety.lean ====
section
/-! DEFINITION. What a well-kept state is, and what a claim may assume of a device: the terms the statements use. -/

namespace Sys2Proof

open Sys2Proof.Machine

/-- The registers' unimplemented bits are 0 (R65): CORCON<15:13>, INTCON1<14:11>, <7:5>, <0>, INTCON2<13:5> and its unstored bit 14,
IFS2<15:13>, IEC2<15:13>, bit 3 of each IPC nibble, IPC11<15:3>. -/
abbrev Machine.State.reservedClear (s : State) : Prop :=
  s.corcon &&& 0xE000 = 0 ∧ s.intcon1 &&& 0x78E1 = 0 ∧ s.intcon2 &&& 0x7FE0 = 0 ∧
    s.ifs.get 2 &&& 0xE000 = 0 ∧ s.iec.get 2 &&& 0xE000 = 0 ∧
    (∀ k, s.ipc.get k &&& 0x8888 = 0) ∧ s.ipc.get 11 &&& 0xFFF8 = 0

/-- Instruction addresses are even: the PC's bit 0 is 0 (R21), and so is that of a loop's target. -/
def Machine.State.addressesEven (s : State) : Prop :=
  s.pc.getLsbD 0 = false ∧ ∀ l, s.loop = some l → l.target.getLsbD 0 = false

/-- Both memories keep their canonical form, and data memory lists addresses from 0x0800 to 0xFFFF only (R101, R102). -/
abbrev Machine.State.memoriesKept (s : State) : Prop :=
  s.data.wf ∧ s.prog.wf ∧ ∀ cell ∈ s.data, 0x0800 ≤ cell.1 ∧ cell.1 < 0x10000

/-- The invariant of the machine. -/
def Machine.State.Inv (s : State) : Prop := s.reservedClear ∧ s.addressesEven ∧ s.memoriesKept

/-- The register addresses of a device make sense (R4): each of the addresses that are parameters names its own register. -/
abbrev Machine.Device.addressesDistinct (d : Device) : Prop :=
  regAt d d.srAddr = some .sr ∧ regAt d d.corconAddr = some .corcon ∧ regAt d d.disicntAddr = some .disicnt ∧
    regAt d d.splimAddr = some .splim ∧ regAt d d.w15Addr = some (.w 15) ∧ regAt d d.rconAddr = some .rcon ∧
    regAt d d.oscconAddr = some .osccon

/-- A step of the machine itself is due: no event at the head of the schedule. -/
abbrev Machine.State.quiet (s : State) : Prop := s.inputs.head?.join = none

/-- The state a machine's own step starts from: the schedule's head passed. -/
def Machine.State.onward (s : State) : State := { s with inputs := s.inputs.tail }

/-- The stack can take `n` words at W15 without a check failing (R296): W15 even, at or above 0x0800, the words below the end of
data space, implemented, and within SPLIM when it is armed. -/
abbrev Machine.State.stackRoom (s : State) (n : Nat) : Prop :=
  (s.getW 15).getLsbD 0 = false ∧ 0x0800 ≤ (s.getW 15).toNat ∧ (s.getW 15).toNat + 2 * n < 0x10000 ∧
    (∀ k, k < n → Device.dataImplemented s.device ((s.getW 15).toNat + 2 * k) = true) ∧
    (s.splimArmed = true → (s.getW 15).toNat + 2 * n ≤ s.splim.toNat + 2)

/-- The stack holds `n` words below W15 that can be popped without a check failing. -/
abbrev Machine.State.stackHolds (s : State) (n : Nat) : Prop :=
  (s.getW 15).getLsbD 0 = false ∧ 0x0800 + 2 * n ≤ (s.getW 15).toNat ∧
    (∀ k, k < n → Device.dataImplemented s.device ((s.getW 15).toNat - 2 * (k + 1)) = true) ∧
    (s.splimArmed = true → (s.getW 15).toNat ≤ s.splim.toNat + 2)

/-- A word address of data space that can be read without a check failing, the value `v` read there, and how many free values that draws:
none in implemented data memory and in the registers whose every bit the spec names, one in RCON and OSCCON (log 18). -/
def Machine.State.readableAs (s : State) (ea v : Word) (d : Nat) : Prop :=
  (ea.getLsbD 0 = false ∧ 0x0800 ≤ ea.toNat ∧ Device.dataImplemented s.device ea.toNat = true ∧ v = s.dataWord ea ∧ d = 0) ∨
    (ea.getLsbD 0 = false ∧ ea.toNat < 0x0800 ∧ ∃ r, regAt s.device ea.toNat = some r ∧ v = (readReg r (start s)).1 ∧
      d = if r = .rcon ∨ r = .osccon then 1 else 0)

/-- An address formed from W15 above an armed SPLIM: what the stack limit check finds (R215). -/
abbrev Machine.State.pastLimit (s : State) (r : WReg) (a : Word) : Prop := r = 15 ∧ s.splimArmed = true ∧ s.splim.toNat < a.toNat

/-- The stack error flag set where a stack check fails (R214 to R216). -/
def Machine.State.stackError (s : State) (bad : Prop) [Decidable bad] : State :=
  { s with intcon1 := if bad then s.intcon1 ||| 0x0004 else s.intcon1 }

/-- The modes that go through a pointer register. -/
def AddrMode.isIndirect : AddrMode → Bool
  | .direct | .unused6 | .unused7 => false
  | .indirect | .postDec | .postInc | .preDec | .preInc => true

/-- Where the PC stands `words` words on, `p`, and how many free values that takes, `d`: none inside program space (R21); past its end
the PC is a free even address (N12, log 17). -/
def Machine.State.pcPast (s : State) (words : Nat) (p : PC) (d : Nat) : Prop :=
  if s.pc.toNat + 2 * words < 2 ^ 23 then p = s.pc + BitVec.ofNat 23 (2 * words) ∧ d = 0
  else p.getLsbD 0 = false ∧ d = 1

/-- What an instruction of `n` cycles leaves that changes nothing but the PC: DISICNT counted down to no less than 0 (R151), and `d` free
values drawn. -/
def Machine.State.finished (s : State) (p : PC) (d n : Nat) : State :=
  { s with pc := p, disicnt := BitVec.ofNat 14 (s.disicnt.toNat - n), draws := s.draws + d }

/-- What entry of `cand` from `s` leaves in `t`, whatever its pushes meet (R237, R239, R240, R246): the CPU priority, the vector, W15
four higher, DISICNT four lower, and nothing else changed but what the pushes write: data memory and the flags of INTCON1. -/
def Machine.State.entered (s : State) (cand : Candidate) (t : State) : Prop :=
  (match cand with
    | .trap τ => t.cpuIpl = τ.level ∧ ∀ b, b ≠ 3 → t.corcon.getLsbD b = s.corcon.getLsbD b
    | .irq i => t.ipl.toNat = (if s.nstdis then 7 else s.irqLevel i) ∧ t.corcon = s.corcon) ∧
  (∀ b, b < 16 → ¬ (5 ≤ b ∧ b ≤ 7) → t.sr.getLsbD b = s.sr.getLsbD b) ∧
  t.pc = (s.progRead ((if s.altivt then 0x84 else 0x04) + 2 * cand.vector)).extractLsb' 1 22 ++ 0#1 ∧
  t.getW 15 = s.getW 15 + 4 ∧ (∀ r, r ≠ 15 → t.getW r = s.getW r) ∧
  t.disicnt.toNat = s.disicnt.toNat - 4 ∧
  t = { s with
    w := t.w, data := t.data, sr := t.sr, corcon := t.corcon, intcon1 := t.intcon1, pc := t.pc, disicnt := t.disicnt,
    acceptAge := 0, bufferPc := s.pc, bufferSrl := s.srl }

end Sys2Proof
end

