-- ==== Sys2Proof/Certificates/Slice0/Obligations.lean ====
section
/-! DEFINITION. The statements for the provers: what the rules of spec/ say of the machine. A statement about every state holds in
states that no run reaches. `finished p d n` says that nothing changes but the PC, DISICNT counted down by `n` and `d` free values drawn. -/

open Sys2Proof Sys2Proof.Machine

/-! ### Encoding -/

/-- R133, R138: every instruction that can begin a word is read back from its own words, whatever follows a one-word one. -/
def Obligations.DecodeReadsBackEncode : Prop :=
  ∀ (i : Instr) (w2 : ProgWord), i.isFirstWord = true → (i.words = 2 → w2 = encodeWord2 i) →
    decode (encodeWord1 i) w2 = .ok i ∧
      encode i = encodeWord1 i :: (if i.words = 2 then [encodeWord2 i] else [])

/-- R135: a word that no row of the opcode table matches is refused, and an accepted word matches its instruction's row. -/
def Obligations.DecodeRefusesWordsOutsideTable : Prop :=
  (∀ w w2 : ProgWord, (∀ i : Instr, i.isFirstWord = true → w &&& (opcodeRow i).1 ≠ (opcodeRow i).2) →
    ∃ why, decode w w2 = .error why) ∧
  (∀ (w w2 : ProgWord) (i : Instr), decode w w2 = .ok i →
    i.isFirstWord = true ∧ w &&& (opcodeRow i).1 = (opcodeRow i).2)

/-- R133: the decoder drops no bit: but for the ignored bits of NOP, the instruction determines its words. -/
def Obligations.DecodedInstructionDeterminesWords : Prop :=
  ∀ (w w2 : ProgWord) (i : Instr), decode w w2 = .ok i → i ≠ .nop →
    w = encodeWord1 i ∧ (i.words = 2 → w2 = encodeWord2 i)

/-- R133: words written out from the patterns decode to what they stand for; that the code 001 of a mode is register indirect is the model's
choice (log 10, PRESUMED). -/
def Obligations.WrittenWordsDecode : Prop :=
  decode 0x37FFFF 0 = .ok (.bra 0xFFFF) ∧ decode 0x040100 0 = .ok (.goto 0x000080) ∧ decode 0x064000 0 = .ok .retfie ∧
    decode 0xFC0005 0 = .ok (.disi 5) ∧ decode 0xF80042 0 = .ok (.push 0x21) ∧ decode 0xBE0091 0 = .error .fixedBits ∧
    decode 0xBE0112 0 = .ok (.movdLoad 1 .indirect 2) ∧ decode 0xC88051 0 = .ok (.sftacLit .b 0x11) ∧
    decode 0xAF6085 0 = .ok (.btscF 0xB 0x042) ∧ decode 0xD80042 0 = .ok (.divS 0 0 .double 2)

/-! ### Reset -/

/-- R66: the registers after Reset, each at the value the spec gives. -/
def Obligations.ResetStateHasSpecValues : Prop :=
  let s := State.reset
  s.pc = 0 ∧ s.getW 15 = 0x0800 ∧ s.sr = 0 ∧ s.corcon = 0x0020 ∧ s.cpuIpl = 0 ∧ s.intcon1 = 0 ∧ s.intcon2 = 0 ∧
    (∀ k, s.ifs.get k = 0 ∧ s.iec.get k = 0) ∧ (∀ k, s.ipc.get k = if k = 11 then 0x0004 else 0x4444) ∧
    s.disicnt = 0 ∧ s.splimArmed = false ∧ s.cf = false ∧ s.runState = .running ∧ s.acceptAge = 0 ∧
    (∀ i, i < 45 → s.irqLevel i = 4) ∧ s.pendingTrap = none ∧ s.winner = none

/-- R281, R66: a device Reset gives every register its reset value whatever the state was, keeps program memory, and sets TRAPR for a hard
trap conflict; RESET does one that is not a conflict (R170). That the REPEAT loop is dropped is the model's choice (log 6, DEDUCED). -/
def Obligations.DeviceResetHasSpecValues : Prop :=
  ∀ (cause : ResetCause) (s : State),
    let t := deviceReset cause s
    t.pc = 0 ∧ t.getW 15 = 0x0800 ∧ t.sr = 0 ∧ t.corcon = 0x0020 ∧ t.intcon1 = 0 ∧ t.intcon2 = 0 ∧
      t.ifs = State.reset.ifs ∧ t.iec = State.reset.iec ∧ t.ipc = State.reset.ipc ∧ t.disicnt = 0 ∧
      t.splimArmed = false ∧ t.cf = false ∧ t.runState = .running ∧ t.acceptAge = 0 ∧ t.loop = none ∧
      t.prog = s.prog ∧ t.device = s.device ∧ (cause = .trapConflict → t.trapr = true) ∧
      exec .reset s = .next (deviceReset .software s)

/-- The invariant holds after Reset. -/
def Obligations.ResetStateKeepsInvariant : Prop := State.reset.Inv

/-! ### The whole machine -/

/-- Every step keeps the invariant: unimplemented bits 0 (R65), the PC even (R21), the memories in canonical form and data memory within
its addresses (R101). -/
def Obligations.StepKeepsInvariant : Prop :=
  ∀ s t : State, s.Inv → step s = .next t → t.Inv

/-- R114: no step changes program memory; nor the device's parameters (R4). -/
def Obligations.StepKeepsProgramMemory : Prop :=
  ∀ s t : State, step s = .next t → t.prog = s.prog ∧ t.device = s.device

/-- R25, R239, R152: software can only clear IPL3: no instruction but RETFIE sets it, and a step that sets it is a trap's entry or a RETFIE. -/
def Obligations.OnlyTrapEntryAndRetfieSetIpl3 : Prop :=
  (∀ (i : Instr) (s t : State), i ≠ .retfie → exec i s = .next t → s.ipl3 = false → t.ipl3 = false) ∧
  (∀ s t : State, step s = .next t → s.ipl3 = false → t.ipl3 = true →
    s.quiet ∧ ((∃ τ u, s.onward.decision = .enter (.trap τ) u) ∨
      ∃ s1, s.onward.decision = .run s1 ∧ s1.fetch = .next .retfie))

/-- R230, R237, R58: a step that is an event, or an entry whose frame lies in data memory, changes no enable, no priority field and not the
arming of the stack limit, unless it resets the device (an external Reset, or a conflict); and only a device Reset disarms the limit. -/
def Obligations.EventsAndEntriesKeepEnables : Prop :=
  (∀ (s t : State) (e : InputEvent) (rest : List (Option InputEvent)), s.inputs = some e :: rest → e ≠ .externalReset →
    (∀ c, e = .oscFail c → s.conflicts .oscFail = false) → step s = .next t →
    t.iec = s.iec ∧ t.ipc = s.ipc ∧ t.splimArmed = s.splimArmed) ∧
  (∀ (s t u : State) (cand : Candidate), s.quiet → s.onward.decision = .enter cand u →
    0x0800 ≤ (s.getW 15).toNat → (s.getW 15).toNat + 2 < 0x10000 →
    ((s.getW 15).getLsbD 0 = true → s.conflicts .addrErr = false) → step s = .next t →
    t.iec = s.iec ∧ t.ipc = s.ipc ∧ t.splimArmed = s.splimArmed) ∧
  (∀ s t : State, step s = .next t → s.splimArmed = true → t.splimArmed = false →
    ∃ cause u, t = deviceReset cause u ∧ u.prog = s.prog ∧ u.device = s.device ∧ u.inputs = s.inputs.tail)

/-- R235: when the decision is to run, with nothing acceptable or in the skid of a candidate (R236), a step runs the instruction that stands
at the PC; where a REPEAT loop stands at it, the loop's own rule is applied after it. -/
def Obligations.StepRunsDecodedInstruction : Prop :=
  ∀ (s : State) (i : Instr), s.quiet → Device.progImplemented s.device s.pc.toNat = true → s.progListed s.pc.toNat = true →
    decode (s.progRead s.pc.toNat) (s.progRead (s.pc.toNat + 2)) = .ok i →
    (∀ u, s.onward.decision = .run u →
      step s = afterIteration u (exec i u) ∧ (u.loopLive = none → step s = exec i u)) ∧
    (s.runState = .running → s.onward.candidate = none →
      step s = afterIteration { s.onward with acceptAge := 0 } (exec i { s.onward with acceptAge := 0 }) ∧
      (({ s.onward with acceptAge := 0 } : State).loopLive = none → step s = exec i { s.onward with acceptAge := 0 }))

/-- R235 step 4, R236, R209, R210: the decision when the machine runs. The bound is INT_SKID_MAX for an interrupt, SOFT_TRAP_SKID_MAX for a
soft trap, 0 for a hard one; below it a free bit decides, and each choice draws a bit of its own (log 8). R237: where the decision is to
enter, the step is the entry; where it is to run, the step is the instruction at the PC, in a candidate's skid too. -/
def Obligations.BoundaryDecisionFollowsCandidate : Prop :=
  (∀ s : State, s.runState = .running →
    (s.candidate = none → s.decision = .run { s with acceptAge := 0 }) ∧
    (∀ cand, s.candidate = some cand →
      let bound := match cand with
        | .irq _ => s.device.intSkidMax
        | .trap τ => if 13 ≤ τ.level then 0 else s.device.softTrapSkidMax
      (bound ≤ s.acceptAge → s.decision = .enter cand s) ∧
      (s.acceptAge < bound → s.decision =
        if Config.skid s.draws then .run { s with acceptAge := s.acceptAge + 1, draws := s.draws + 1 }
        else .enter cand { s with draws := s.draws + 1 }) ∧
      (∀ τ, cand = .trap τ → (τ = .oscFail ∨ τ = .addrErr) → s.decision = .enter cand s))) ∧
  (∀ (s u : State) (cand : Candidate), s.quiet → s.onward.decision = .enter cand u → step s = takeException cand u) ∧
  (∀ s u : State, s.quiet → s.onward.decision = .run u → step s = runInstruction u)

/-- R234: eligibility, and the winner of the arbitration. -/
def Obligations.ArbitrationPicksGreatestLevelThenLowestNumber : Prop :=
  ∀ s : State,
    (∀ i, s.eligible i = true ↔ s.irqPresent i = true ∧ s.irqFlag i = true ∧ s.irqEnable i = true ∧
      s.cpuIpl < s.irqLevel i ∧ ¬ (s.disicnt ≠ 0 ∧ s.irqLevel i ≤ 6)) ∧
    (∀ i, s.winner = some i ↔ s.eligible i = true ∧ ∀ j, s.eligible j = true →
      s.irqLevel j < s.irqLevel i ∨ (s.irqLevel j = s.irqLevel i ∧ i ≤ j)) ∧
    (s.winner = none ↔ ∀ i, s.eligible i = false)

/-- R233: with DISICNT not 0 only level 7 can win, level 7 stays eligible, and traps are not affected. -/
def Obligations.DisiBlocksLevelsOneToSix : Prop :=
  ∀ (s : State) (n : BitVec 14), n ≠ 0 →
    (∀ i, ({ s with disicnt := n } : State).winner = some i → s.irqLevel i = 7) ∧
    (∀ i, s.eligible i = true → s.irqLevel i = 7 → ({ s with disicnt := n } : State).eligible i = true) ∧
    ({ s with disicnt := n } : State).pendingTrap = s.pendingTrap

/-- R211, R213, R245: the pending trap of greatest level is the candidate before any interrupt. -/
def Obligations.PendingTrapOfGreatestLevelComesFirst : Prop :=
  ∀ s : State,
    (∀ τ, s.pendingTrap = some τ ↔ s.trapFlag τ = true ∧ s.cpuIpl < τ.level ∧
      ∀ τ', s.trapFlag τ' = true → s.cpuIpl < τ'.level → τ'.level ≤ τ.level) ∧
    (∀ τ, s.pendingTrap = some τ → s.candidate = some (.trap τ)) ∧
    (s.pendingTrap = none → s.candidate = s.winner.map .irq)

/-- R205: at CPU priority 7 or above no interrupt can be accepted; a trap is blocked only by a CPU priority at or above its level, which
needs IPL3. -/
def Obligations.HighPriorityBlocksInterruptsOnly : Prop :=
  ∀ s : State, (7 ≤ s.cpuIpl → s.winner = none) ∧
    (s.ipl3 = false → ∀ τ, s.trapFlag τ = true → s.pendingTrap ≠ none)

/-- R26: the CPU priority level, IPL3 being CORCON<3> and IPL<2:0> SR<7:5>; R54: flag, enable and level of a source, bit by bit of the
registers. -/
def Obligations.PriorityAndSourcesAreRegisterBits : Prop :=
  ((∀ s : State, s.ipl3 = s.corcon.getLsbD 3 ∧ s.ipl = s.sr.extractLsb' 5 3 ∧
      s.cpuIpl = (if s.corcon.getLsbD 3 then 8 else 0) + (s.sr.extractLsb' 5 3).toNat ∧ s.cpuIpl ≤ 15) ∧
    State.reset.cpuIpl = 0) ∧
  ∀ (s : State) (i : Nat) (h : i < 45),
    s.irqFlag i = (s.ifs[i / 16]'(by omega)).getLsbD (i % 16) ∧
    s.irqEnable i = (s.iec[i / 16]'(by omega)).getLsbD (i % 16) ∧
    ∀ b, b < 3 → s.irqLevel i < 8 ∧
      (s.irqLevel i).testBit b = (s.ipc[i / 4]'(by omega)).getLsbD (4 * (i % 4) + b)

/-! ### Taking an exception and returning -/

/-- R237, R238, R239: a trap's entry with room on the stack: the frame, the priority, the vector; the flag is not cleared (R226) and
nothing else changes. -/
def Obligations.TrapEntrySavesFrameAndSetsLevel : Prop :=
  ∀ (s : State) (τ : Trap), s.stackRoom 2 → ∃ t,
    takeException (.trap τ) s = .next t ∧
    t.dataWord (s.getW 15) = s.pc.extractLsb' 0 16 ∧
    t.dataWord (s.getW 15 + 2) = s.srl ++ BitVec.ofBool s.ipl3 ++ s.pc.extractLsb' 16 7 ∧
    (∀ a, (a < (s.getW 15).toNat ∨ (s.getW 15).toNat + 4 ≤ a) → t.dataByte a = s.dataByte a) ∧
    t.getW 15 = s.getW 15 + 4 ∧ (∀ r, r ≠ 15 → t.getW r = s.getW r) ∧
    t.cpuIpl = τ.level ∧
    t.pc = (s.progRead ((if s.altivt then 0x84 else 0x04) + 2 * τ.vector)).extractLsb' 1 22 ++ 0#1 ∧
    (∀ b, b < 16 → ¬ (5 ≤ b ∧ b ≤ 7) → t.sr.getLsbD b = s.sr.getLsbD b) ∧
    (∀ b, b ≠ 3 → t.corcon.getLsbD b = s.corcon.getLsbD b) ∧
    t.disicnt.toNat = s.disicnt.toNat - 4 ∧
    t = { s with
      w := t.w, data := t.data, sr := t.sr, corcon := t.corcon, pc := t.pc, disicnt := t.disicnt, acceptAge := 0,
      bufferPc := s.pc, bufferSrl := s.srl }

/-- R237, R238, R240, R244: an interrupt's entry with room on the stack; with NSTDIS the CPU goes to level 7; the request flag is not
cleared, IPL3 does not change, nothing else changes. -/
def Obligations.InterruptEntrySavesFrameAndSetsLevel : Prop :=
  ∀ (s : State) (i : Nat), s.stackRoom 2 → ∃ t,
    takeException (.irq i) s = .next t ∧
    t.dataWord (s.getW 15) = s.pc.extractLsb' 0 16 ∧
    t.dataWord (s.getW 15 + 2) = s.srl ++ BitVec.ofBool s.ipl3 ++ s.pc.extractLsb' 16 7 ∧
    (∀ a, (a < (s.getW 15).toNat ∨ (s.getW 15).toNat + 4 ≤ a) → t.dataByte a = s.dataByte a) ∧
    t.getW 15 = s.getW 15 + 4 ∧ (∀ r, r ≠ 15 → t.getW r = s.getW r) ∧
    t.ipl.toNat = (if s.nstdis then 7 else s.irqLevel i) ∧
    t.pc = (s.progRead ((if s.altivt then 0x84 else 0x04) + 2 * (i + 8))).extractLsb' 1 22 ++ 0#1 ∧
    (∀ b, b < 16 → ¬ (5 ≤ b ∧ b ≤ 7) → t.sr.getLsbD b = s.sr.getLsbD b) ∧
    t.disicnt.toNat = s.disicnt.toNat - 4 ∧
    t = { s with
      w := t.w, data := t.data, sr := t.sr, pc := t.pc, disicnt := t.disicnt, acceptAge := 0,
      bufferPc := s.pc, bufferSrl := s.srl }

/-- R152, R237: entry and then RETFIE return to the interrupted PC, status, priority and stack pointer. -/
def Obligations.EntryThenRetfieRestores : Prop :=
  ∀ (s : State) (cand : Candidate), s.stackRoom 2 → s.pc.getLsbD 0 = false → ∃ t u,
    takeException cand s = .next t ∧ exec .retfie t = .next u ∧
    u.pc = s.pc ∧ u.sr = s.sr ∧ u.corcon = s.corcon ∧ u.cpuIpl = s.cpuIpl ∧ u.w = s.w ∧
    u.disicnt.toNat = s.disicnt.toNat - 4 - 3

/-- R242, R240: once an interrupt is entered only a greater level can win; with NSTDIS none can. -/
def Obligations.SameLevelWaitsForTheHandler : Prop :=
  ∀ (s t : State) (i j : Nat), s.stackRoom 2 → takeException (.irq i) s = .next t → t.winner = some j →
    s.irqLevel i < s.irqLevel j ∧ s.nstdis = false

/-- R227, R239: inside a trap's handler only a trap of a greater level is acceptable, whatever NSTDIS says. -/
def Obligations.OnlyHigherTrapsNestInTraps : Prop :=
  ∀ (s t : State) (τ : Trap) (cand : Candidate), s.stackRoom 2 → takeException (.trap τ) s = .next t →
    t.candidate = some cand → ∃ τ', cand = .trap τ' ∧ τ.level < τ'.level

/-- R246, R223, R228, R214 to R216: entry on an odd stack pointer, wherever it points, stores nothing, raises the address error, meets the
stack checks as ever and otherwise completes: the priority, the vector, W15 four higher, nothing else; where the raise is a conflict the device
is Reset with TRAPR. -/
def Obligations.EntryOnOddStackRaisesAddressError : Prop :=
  ∀ (s : State) (cand : Candidate), (s.getW 15).getLsbD 0 = true →
    let bad := (s.getW 15 + 2).toNat < 0x0800 ∨ (s.getW 15 + 4).toNat < 0x0800 ∨ s.pastLimit 15 (s.getW 15) ∨
      s.pastLimit 15 (s.getW 15 + 2)
    (s.conflicts .addrErr = false → ∃ t, takeException cand s = .next t ∧ s.entered cand t ∧ t.data = s.data ∧
      t.intcon1 = s.intcon1 ||| if bad then 0x000C else 0x0008) ∧
    (s.conflicts .addrErr = true → takeException cand s = .next (deviceReset .trapConflict s) ∧
      (deviceReset .trapConflict s).trapr = true)

/-- R246, R223, R221, R214 to R216 (log 1; log 33 for what RETFIE restores): on an odd stack pointer PUSH stores nothing, POP writes nothing,
RETURN and RETFIE restore free values; each raises the address error, moves W15 as ever and meets the stack checks as ever. Where the raise is a
conflict (R228) the device is Reset. -/
def Obligations.OddStackPointerRaisesAddressError : Prop :=
  ∀ s : State, (s.getW 15).getLsbD 0 = true →
    let up := s.getW 15 + 2
    let first := s.getW 15 - 2
    let second := s.getW 15 - 4
    let flagged (bad : Prop) [Decidable bad] : Word := s.intcon1 ||| if bad then 0x000C else 0x0008
    (∀ (f : BitVec 15) (v : Word) (e : Nat), s.readableAs (f ++ 0#1) v e →
      (s.conflicts .addrErr = false → ∃ p d, s.pcPast 1 p d ∧ exec (.push f) s = .next
        { (s.putW 15 up).finished p (e + d) (cycles (.push f) s) with
          intcon1 := flagged (up.toNat < 0x0800 ∨ s.pastLimit 15 (s.getW 15)) }) ∧
      (s.conflicts .addrErr = true →
        exec (.push f) s = .next (deviceReset .trapConflict { s with draws := s.draws + e }))) ∧
    (s.conflicts .addrErr = false →
      (∀ f, ∃ p d, s.pcPast 1 p d ∧ exec (.pop f) s = .next { (s.putW 15 first).finished p (d + 1) (cycles (.pop f) s) with
        intcon1 := flagged (s.getW 15 = 1 ∨ first.toNat < 0x0800 ∨ s.pastLimit 15 first) }) ∧
      (let bad := s.getW 15 = 1 ∨ first.toNat < 0x0800 ∨ second.toNat < 0x0800 ∨ s.pastLimit 15 first ∨ s.pastLimit 15 second
       (∃ p, p.getLsbD 0 = false ∧ exec .returnSub s = .next
          { (s.putW 15 second).finished p 2 (cycles .returnSub s) with intcon1 := flagged bad }) ∧
        (∃ p v c, p.getLsbD 0 = false ∧ (∀ b, 8 ≤ b → v.getLsbD b = s.sr.getLsbD b) ∧
          (∀ b, b ≠ 3 → c.getLsbD b = s.corcon.getLsbD b) ∧ exec .retfie s = .next
            { (s.putW 15 second).finished p 2 3 with intcon1 := flagged bad, sr := v, corcon := c }))) ∧
    (s.conflicts .addrErr = true → (∀ f, exec (.pop f) s = .next (deviceReset .trapConflict s)) ∧
      exec .returnSub s = .next (deviceReset .trapConflict s) ∧ exec .retfie s = .next (deviceReset .trapConflict s))

/-! ### Control transfer -/

/-- R183, and R133 for GOTO's second word executed by itself (log 22): the PC moves on, nothing else changes. -/
def Obligations.NopAdvancesThePc : Prop :=
  ∀ (s : State) (i : Instr), (i = .nop ∨ ∃ n, i = .gotoWord2 n) →
    ∃ p d, s.pcPast 1 p d ∧ exec i s = .next (s.finished p d (cycles i s))

/-- R172, R173: BRA and GOTO to an implemented address. -/
def Obligations.BranchesReachTheirTarget : Prop :=
  ∀ s : State,
    (∀ n : BitVec 16, 0 ≤ (s.pc.toNat : Int) + 2 + 2 * n.toInt → (s.pc.toNat : Int) + 2 + 2 * n.toInt < 2 ^ 23 →
      Device.progImplemented s.device ((s.pc.toNat : Int) + 2 + 2 * n.toInt).toNat = true →
      exec (.bra n) s =
        .next (s.finished (BitVec.ofInt 23 ((s.pc.toNat : Int) + 2 + 2 * n.toInt)) 0 (cycles (.bra n) s))) ∧
    (∀ n : BitVec 22, Device.progImplemented s.device (2 * n.toNat) = true →
      exec (.goto n) s = .next (s.finished (n ++ 0#1) 0 (cycles (.goto n) s)))

/-- R222: a literal branch to an unimplemented address completes and raises the address error; at an unimplemented PC it is raised
instead of an instruction. Where the raise is a conflict (R228) the device is Reset. That DISICNT is not counted down at an unimplemented PC
is the model's choice (log 9). -/
def Obligations.UnimplementedTargetsRaiseAddressError : Prop :=
  ∀ s : State,
    (∀ n : BitVec 16, 0 ≤ (s.pc.toNat : Int) + 2 + 2 * n.toInt → (s.pc.toNat : Int) + 2 + 2 * n.toInt < 2 ^ 23 →
      Device.progImplemented s.device ((s.pc.toNat : Int) + 2 + 2 * n.toInt).toNat = false →
      (s.conflicts .addrErr = false → exec (.bra n) s = .next { s.finished
        (BitVec.ofInt 23 ((s.pc.toNat : Int) + 2 + 2 * n.toInt)) 0 (cycles (.bra n) s) with
          intcon1 := s.intcon1 ||| 0x0008 }) ∧
      (s.conflicts .addrErr = true → exec (.bra n) s = .next (deviceReset .trapConflict s))) ∧
    (∀ n : BitVec 22, Device.progImplemented s.device (2 * n.toNat) = false →
      (s.conflicts .addrErr = false → exec (.goto n) s =
        .next { s.finished (n ++ 0#1) 0 (cycles (.goto n) s) with intcon1 := s.intcon1 ||| 0x0008 }) ∧
      (s.conflicts .addrErr = true → exec (.goto n) s = .next (deviceReset .trapConflict s))) ∧
    (s.quiet → s.runState = .running → s.onward.candidate = none → Device.progImplemented s.device s.pc.toNat = false →
      (s.conflicts .addrErr = false →
        step s = .next { s.onward with acceptAge := 0, intcon1 := s.intcon1 ||| 0x0008 }) ∧
      (s.conflicts .addrErr = true → step s = .next (deviceReset .trapConflict s.onward)))

/-- R174: RETURN with two words to pop: the PC and W15; SRL and IPL3 stay. -/
def Obligations.ReturnPopsThePc : Prop :=
  ∀ s : State, s.stackHolds 2 →
    exec .returnSub s = .next ((s.putW 15 (s.getW 15 - 4)).finished
      ((s.dataWord (s.getW 15 - 2)).extractLsb' 0 7 ++ (s.dataWord (s.getW 15 - 4)).extractLsb' 1 15 ++ 0#1) 0
      (cycles .returnSub s))

/-- R152, R151, R244: RETFIE with two words to pop: SRL, IPL3 and the PC restored, three cycles counted, no request flag touched. -/
def Obligations.RetfieRestoresStatusAndPc : Prop :=
  ∀ s : State, s.stackHolds 2 →
    let hi := s.dataWord (s.getW 15 - 2)
    let lo := s.dataWord (s.getW 15 - 4)
    ∃ c, exec .retfie s = .next { (s.putW 15 (s.getW 15 - 4)).finished (hi.extractLsb' 0 7 ++ lo.extractLsb' 1 15 ++ 0#1) 0 3 with
        sr := s.sr.extractLsb' 8 8 ++ hi.extractLsb' 8 8
        corcon := c } ∧
      ∀ b, c.getLsbD b = if b = 3 then hi.getLsbD 7 else s.corcon.getLsbD b

/-- R176: REPEAT sets up the loop at the instruction after it, and RA says whether iterations will remain after the first (log 14); the
register form counts by all of its register (log 15). -/
def Obligations.RepeatSetsUpItsLoop : Prop :=
  ∀ (s : State) (i : Instr) (count : Word),
    ((∃ k : BitVec 14, i = .repeatLit k ∧ count = k.setWidth 16) ∨ ∃ r, i = .repeatReg r ∧ count = s.getW r) →
    ∃ p d v, s.pcPast 1 p d ∧
      exec i s = .next { s.finished p d (cycles i s) with
        loop := some { target := p, left := count, started := false }, sr := v } ∧
      ∀ b, v.getLsbD b = if b = 4 then decide (count ≠ 0) else s.sr.getLsbD b

/-- R176, R177 (log 14): while iterations are left the PC goes back to the repeated instruction, and of SR only RA changes; the first
iteration is told from the others; without a loop at it (no loop, one whose target is another address, or one with iterations left and RA
0) an instruction is its own first iteration and the next follows it. -/
def Obligations.RepeatLoopGoesOnWhileIterationsAreLeft : Prop :=
  (∀ (s t : State) (l : RepeatLoop), s.loop = some l → l.target = s.pc → s.ra = decide (l.left ≠ 0) → t.loop = some l →
    s.firstIteration = !l.started ∧
    (l.left = 0 → continueLoop s t = { t with loop := none }) ∧
    (l.left ≠ 0 → (continueLoop s t).pc = s.pc ∧ (continueLoop s t).ra = decide (l.left ≠ 1) ∧
      (∀ b, b ≠ 4 → (continueLoop s t).sr.getLsbD b = t.sr.getLsbD b) ∧
      (continueLoop s t).firstIteration = false ∧
      continueLoop s t = { t with
        pc := s.pc, sr := (continueLoop s t).sr, loop := some { l with left := l.left - 1, started := true } })) ∧
  (∀ s : State, (s.loopLive = none ↔ ∀ l, s.loop = some l → l.target ≠ s.pc ∨ (s.ra = false ∧ l.left ≠ 0)) ∧
    (s.loopLive = none → s.firstIteration = true ∧ ∀ t, continueLoop s t = t))

/-- R176 (log 14): with no exception acceptable, a repeated NOP runs `left + 1` times: RA stays 1 until the last iteration is next, and then
the loop is over. -/
def Obligations.RepeatRunsNopCountPlusOneTimes : Prop :=
  ∀ (s : State) (n : Word) (b : Bool), s.inputs = [] → s.runState = .running →
    (∀ τ, s.trapFlag τ = false) → (∀ i, s.irqEnable i = false) →
    s.loop = some { target := s.pc, left := n, started := b } → s.ra = decide (n ≠ 0) →
    s.pc.toNat + 2 < 2 ^ 23 → Device.progImplemented s.device s.pc.toNat = true → s.progListed s.pc.toNat = true →
    decode (s.progRead s.pc.toNat) (s.progRead (s.pc.toNat + 2)) = .ok .nop →
    (∀ m, 1 ≤ m → m ≤ n.toNat → ∃ t : State, Sys2Proof.core.run m s = .next t ∧ t.pc = s.pc ∧ t.ra = decide (m ≠ n.toNat) ∧
      t.w = s.w ∧ t.data = s.data) ∧
    ∃ t : State, Sys2Proof.core.run (n.toNat + 1) s = .next t ∧ t.pc = s.pc + 2 ∧ t.ra = false ∧ t.loop = none ∧
      t.w = s.w ∧ t.data = s.data

/-- R150, R151, R4, D9, D10: DISI loads DISICNT, which its own step does not count down; every instruction takes at least one cycle, RETFIE
three; any other instruction counts DISICNT down by its own cycles, to no less than 0, unless it resets the device or, while DISICNT is not 0,
stores a word at its address: a PUSH with W15 there, a POP to it, a MOV.D of which either word goes to it. -/
def Obligations.DisiLoadsAndCyclesCountDown : Prop :=
  (∀ (s : State) (n : BitVec 14), ∃ p d, s.pcPast 1 p d ∧ exec (.disi n) s = .next { s.finished p d 0 with disicnt := n }) ∧
  (∀ (i : Instr) (s : State), 1 ≤ cycles i s) ∧ (∀ s : State, cycles .retfie s = 3) ∧
  (∀ (i : Instr) (s t : State), (∀ n, i ≠ .disi n) → exec i s = .next t →
    let counter (a : Word) : Prop := a.toNat < 0x0800 ∧ regAt s.device a.toNat = some .disicnt
    (∃ cause u, t = deviceReset cause u ∧ u.prog = s.prog) ∨
      (s.disicnt ≠ 0 ∧ ((∃ f, i = .push f ∧ counter (s.getW 15)) ∨ (∃ f, i = .pop f ∧ counter (f ++ 0#1)) ∨
        ∃ m r k, i = .movdStore m r k ∧ m.isIndirect = true ∧
          (counter (pointer m r 4 (start s)).1 ∨ counter ((pointer m r 4 (start s)).1 + 2)))) ∨
      t.disicnt.toNat = s.disicnt.toNat - cycles i s)

/-- R171: PWRSAV enters Sleep or Idle; SR does not change. -/
def Obligations.PwrsavEntersSleepOrIdle : Prop :=
  ∀ s : State,
    (∃ p d, s.pcPast 1 p d ∧
      exec (.pwrsav .sleep) s = .next { s.finished p d (cycles (.pwrsav .sleep) s) with runState := .sleep }) ∧
    (∃ p d, s.pcPast 1 p d ∧
      exec (.pwrsav .idle) s = .next { s.finished p d (cycles (.pwrsav .idle) s) with runState := .idle })

/-! ### Arithmetic -/

/-- R175, R220: a shift beyond 16 either way raises the arithmetic error and leaves the accumulators and SR as they are. -/
def Obligations.SftacBeyondSixteenRaisesMathErr : Prop :=
  ∀ (s : State) (i : Instr) (x : AccSel) (k : BitVec 6),
    (i = .sftacLit x k ∨ ∃ r, i = .sftacReg x r ∧ k = (s.getW r).setWidth 6) → (16 < k.toInt ∨ k.toInt < -16) →
    ∃ p d, s.pcPast 1 p d ∧ exec i s = .next { s.finished p d (cycles i s) with intcon1 := s.intcon1 ||| 0x0010 }

/-- R175, R186, R218 (log 12): a shift of at most 16 either way. A positive count shifts right; the vacated bits, SA or SB, OAB and SAB are
free, and so is a result that saturation replaces; OA or OB and the trap follow R218; the other accumulator is unchanged. -/
def Obligations.SftacWithinSixteenShifts : Prop :=
  ∀ (s : State) (i : Instr) (x : AccSel) (k : BitVec 6),
    (i = .sftacLit x k ∨ ∃ r, i = .sftacReg x r ∧ k = (s.getW r).setWidth 6) → -16 ≤ k.toInt → k.toInt ≤ 16 →
    let exact := (s.getAcc x).toInt * 2 ^ (-k.toInt).toNat
    let carry31 := k.toInt < 0 ∧ (exact < -(2 ^ 31) ∨ 2 ^ 31 ≤ exact)
    let carry39 := k.toInt < 0 ∧ (exact < -(2 ^ 39) ∨ 2 ^ 39 ≤ exact)
    ∃ p d t, s.pcPast 1 p d ∧ exec i s = .next t ∧
      t = { s.finished p (d + 4) (cycles i s) with accA := t.accA, accB := t.accB, sr := t.sr, intcon1 := t.intcon1 } ∧
      (∀ y, y ≠ x → t.getAcc y = s.getAcc y) ∧
      (¬ (s.sat31 x = true ∧ carry31) → ¬ (s.sat39 x = true ∧ carry39) → ∀ b, b < 40 →
        (0 ≤ k.toInt → b + k.toInt.toNat < 40 → (t.getAcc x).getLsbD b = (s.getAcc x).getLsbD (b + k.toInt.toNat)) ∧
        (k.toInt < 0 → (-k.toInt).toNat ≤ b → (t.getAcc x).getLsbD b = (s.getAcc x).getLsbD (b - (-k.toInt).toNat))) ∧
      (t.sr.getLsbD (ovfBit x) = true ↔ carry31 ∧ s.sat31 x = false) ∧
      (∀ b, b ≠ ovfBit x → b ≠ satBit x → b ≠ 11 → b ≠ 10 → t.sr.getLsbD b = s.sr.getLsbD b) ∧
      (t.trapFlag .mathErr = true ↔ s.trapFlag .mathErr = true ∨
        (carry31 ∧ s.sat31 x = false ∧ s.ovfTrapEnabled x = true) ∨
        (carry39 ∧ s.sat31 x = false ∧ s.sat39 x = false ∧ s.covte = true)) ∧
      (∀ b, b ≠ 4 → t.intcon1.getLsbD b = s.intcon1.getLsbD b)

/-- R177, R219 (log 13): an iteration of a divide: the check belongs to the first; W0, W1, N, OV, Z and C are free. -/
def Obligations.DivideIterationChecksItsDivisor : Prop :=
  ∀ (s : State) (i : Instr) (divisor : Word),
    ((∃ t v w r, i = .divS t v w r ∧ divisor = s.getW r) ∨ (∃ t v w r, i = .divU t v w r ∧ divisor = s.getW r) ∨
      (∃ t r, i = .divF t r ∧ divisor = s.getW r)) →
    ∃ p d t, s.pcPast 1 p d ∧ exec i s = .next t ∧
      t = { s.finished p (d + 6) (cycles i s) with w := t.w, sr := t.sr, intcon1 := t.intcon1 } ∧
      (t.trapFlag .mathErr = true ↔ s.trapFlag .mathErr = true ∨ (s.firstIteration = true ∧ divisor = 0)) ∧
      (∀ b, b ≠ 4 → t.intcon1.getLsbD b = s.intcon1.getLsbD b) ∧
      (∀ r, r ≠ 0 → r ≠ 1 → t.getW r = s.getW r) ∧
      (∀ b, 4 ≤ b → t.sr.getLsbD b = s.sr.getLsbD b)

/-! ### Stack and moves -/

/-- R181, R108: PUSH of any word that can be read, with room: the word at W15, W15 two higher, no other byte and no flag. -/
def Obligations.PushStoresTheWord : Prop :=
  ∀ (s : State) (f : BitVec 15) (v : Word) (e : Nat), s.stackRoom 1 → s.readableAs (f ++ 0#1) v e →
    ∃ p d t, s.pcPast 1 p d ∧ exec (.push f) s = .next t ∧
      t = { (s.putW 15 (s.getW 15 + 2)).finished p (e + d) (cycles (.push f) s) with data := t.data } ∧
      t.dataWord (s.getW 15) = v ∧
      ∀ a, (a < (s.getW 15).toNat ∨ (s.getW 15).toNat + 2 ≤ a) → t.dataByte a = s.dataByte a

/-- R214 to R216, R246, R152, R174, D20: the stack checks raise the stack error and the access is performed all the same: a push and an entry
beyond an armed limit or that wrap W15 to 0; a pop by POP, RETURN or RETFIE beyond the limit, below 0x0800 or from W15 = 0. The entry completes
with the priority and the vector as ever (V70). Nothing is stored in data space that is not implemented (D27). A pop that meets no register
below 0x0800 is refused (U10, log 21). -/
def Obligations.StackChecksFlagAndStillAccess : Prop :=
  (∀ (s : State) (f : BitVec 15) (v : Word) (e : Nat), s.readableAs (f ++ 0#1) v e →
    (s.getW 15).getLsbD 0 = false → 0x0800 ≤ (s.getW 15).toNat →
    let u := (s.putW 15 (s.getW 15 + 2)).stackError (s.getW 15 = 0xFFFE ∨ s.pastLimit 15 (s.getW 15))
    let stored := Device.dataImplemented s.device (s.getW 15).toNat = true
    ∃ p d t, s.pcPast 1 p d ∧ exec (.push f) s = .next t ∧
      t = { u.finished p (e + d) (cycles (.push f) s) with data := t.data } ∧ (stored → t.dataWord (s.getW 15) = v) ∧
      ∀ a, (stored → a < (s.getW 15).toNat ∨ (s.getW 15).toNat + 2 ≤ a) → t.dataByte a = s.dataByte a) ∧
  (∀ (s : State) (f : BitVec 15) (v : Word) (e : Nat),
    let ea := s.getW 15 - 2
    let u := (s.putW 15 ea).stackError (s.getW 15 = 0 ∨ ea.toNat < 0x0800 ∨ s.pastLimit 15 ea)
    u.readableAs ea v e → 0x0800 ≤ (f ++ 0#1).toNat → Device.dataImplemented s.device (f ++ 0#1).toNat = true →
    ∃ p d t, s.pcPast 1 p d ∧ exec (.pop f) s = .next t ∧
      t = { u.finished p (e + d) (cycles (.pop f) s) with data := t.data } ∧ t.dataWord (f ++ 0#1) = v ∧
      ∀ a, (a < (f ++ 0#1).toNat ∨ (f ++ 0#1).toNat + 2 ≤ a) → t.dataByte a = s.dataByte a) ∧
  (∀ (s : State) (hi : Word) (e1 : Nat),
    let first := s.getW 15 - 2
    let second := s.getW 15 - 4
    let u1 := (s.putW 15 first).stackError (s.getW 15 = 0 ∨ first.toNat < 0x0800 ∨ s.pastLimit 15 first)
    let u2 := (({ u1 with draws := u1.draws + e1 } : State).putW 15 second).stackError
      (first = 0 ∨ second.toNat < 0x0800 ∨ s.pastLimit 15 second)
    u1.readableAs first hi e1 →
    (∀ (lo : Word) (e2 : Nat), u2.readableAs second lo e2 →
      let target := hi.extractLsb' 0 7 ++ lo.extractLsb' 1 15 ++ 0#1
      exec .returnSub s = .next (u2.finished target e2 (cycles .returnSub s)) ∧
      ∃ c, exec .retfie s = .next { u2.finished target e2 3 with
          sr := s.sr.extractLsb' 8 8 ++ hi.extractLsb' 8 8, corcon := c } ∧
        ∀ b, c.getLsbD b = if b = 3 then hi.getLsbD 7 else s.corcon.getLsbD b) ∧
    (second.toNat < 0x0800 → regAt s.device second.toNat = none →
      exec .returnSub s = .refused .unlistedRegister ∧ exec .retfie s = .refused .unlistedRegister)) ∧
  (∀ s : State, (s.getW 15).getLsbD 0 = false → (s.getW 15 - 2).toNat < 0x0800 →
    regAt s.device (s.getW 15 - 2).toNat = none →
    (∀ f, exec (.pop f) s = .refused .unlistedRegister) ∧ exec .returnSub s = .refused .unlistedRegister ∧
      exec .retfie s = .refused .unlistedRegister) ∧
  (∀ (s : State) (cand : Candidate), (s.getW 15).getLsbD 0 = false → 0x0800 ≤ (s.getW 15).toNat →
    (s.getW 15).toNat + 2 < 0x10000 →
    let lower := Device.dataImplemented s.device (s.getW 15).toNat = true
    let upper := Device.dataImplemented s.device ((s.getW 15).toNat + 2) = true
    ∃ t, takeException cand s = .next t ∧
      s.entered cand t ∧ t.intcon1 = (s.stackError (s.getW 15 = 0xFFFC ∨ s.pastLimit 15 (s.getW 15 + 2))).intcon1 ∧
      (lower → t.dataWord (s.getW 15) = s.pc.extractLsb' 0 16) ∧
      (upper → t.dataWord (s.getW 15 + 2) = s.srl ++ BitVec.ofBool s.ipl3 ++ s.pc.extractLsb' 16 7) ∧
      ∀ a, (lower → a < (s.getW 15).toNat ∨ (s.getW 15).toNat + 2 ≤ a) →
        (upper → a < (s.getW 15).toNat + 2 ∨ (s.getW 15).toNat + 4 ≤ a) → t.dataByte a = s.dataByte a)

/-- R182, R108: POP into data memory: the popped word at `f`, W15 two lower, no other byte and no flag; into unimplemented data space
nothing is stored (D27). -/
def Obligations.PopStoresToMemory : Prop :=
  ∀ (s : State) (f : BitVec 15), s.stackHolds 1 → 0x0800 ≤ (f ++ 0#1).toNat →
    ∃ p d t, s.pcPast 1 p d ∧ exec (.pop f) s = .next t ∧
      t = { (s.putW 15 (s.getW 15 - 2)).finished p d (cycles (.pop f) s) with data := t.data } ∧
      (Device.dataImplemented s.device (f ++ 0#1).toNat = false → t.data = s.data) ∧
      (Device.dataImplemented s.device (f ++ 0#1).toNat = true → t.dataWord (f ++ 0#1) = s.dataWord (s.getW 15 - 2) ∧
        ∀ a, (a < (f ++ 0#1).toNat ∨ (f ++ 0#1).toNat + 2 ≤ a) → t.dataByte a = s.dataByte a)

/-- R182, R22, R27: POP SR, bit by bit: N, OV, Z and C are written, IPL<2:0> unless NSTDIS is 1, SA, SB and SAB can only be cleared, the
rest keep their state. -/
def Obligations.PopWritesSr : Prop :=
  ∀ (s : State) (f : BitVec 15), s.stackHolds 1 → (f ++ 0#1).toNat < 0x0800 →
    regAt s.device (f ++ 0#1).toNat = some .sr →
    ∃ p d v, s.pcPast 1 p d ∧
      exec (.pop f) s = .next { (s.putW 15 (s.getW 15 - 2)).finished p d (cycles (.pop f) s) with sr := v } ∧
      ∀ b, v.getLsbD b =
        if b < 4 ∨ (5 ≤ b ∧ b ≤ 7 ∧ s.nstdis = false) then (s.dataWord (s.getW 15 - 2)).getLsbD b
        else if b = 10 ∨ b = 12 ∨ b = 13 then s.sr.getLsbD b && (s.dataWord (s.getW 15 - 2)).getLsbD b
        else s.sr.getLsbD b

/-- R6, R25, R28, R35, R57, R58, R182: POP into the other registers: IPL3 can only be cleared; a source the device lacks keeps its bits; a
word written to SPLIM arms the limit, and that its bit 0 is written too is the model's choice (log 34); DISICNT takes the value when it is not
0 and stays 0 when it is (D10); CF after the write, and TRAPR after a written 1, are open (log 18). -/
def Obligations.PopWritesRegisters : Prop :=
  ∀ (s : State) (f : BitVec 15) (r : Reg), s.stackHolds 1 → (f ++ 0#1).toNat < 0x0800 →
    regAt s.device (f ++ 0#1).toNat = some r →
    let v := s.dataWord (s.getW 15 - 2)
    let u := s.putW 15 (s.getW 15 - 2)
    let n := cycles (.pop f) s
    ∃ p d, s.pcPast 1 p d ∧
      (r = .corcon → ∃ x, exec (.pop f) s = .next { u.finished p d n with corcon := x } ∧
        ∀ b, x.getLsbD b = if b ≤ 2 ∨ (4 ≤ b ∧ b ≤ 7) ∨ b = 11 ∨ b = 12 then v.getLsbD b
          else if b = 3 then s.corcon.getLsbD b && v.getLsbD b else s.corcon.getLsbD b) ∧
      (r = .intcon2 → ∃ x, exec (.pop f) s = .next { u.finished p d n with intcon2 := x } ∧
        ∀ b, x.getLsbD b = if b ≤ 4 ∨ b = 15 then v.getLsbD b else s.intcon2.getLsbD b) ∧
      (∀ k : Fin 3, r = .ifs k → ∃ x, exec (.pop f) s = .next { u.finished p d n with ifs := s.ifs.set k x } ∧
        ∀ b : Nat, b < 16 → x.getLsbD b = if s.irqPresent (16 * k + b) then v.getLsbD b else (s.ifs.get k).getLsbD b) ∧
      (∀ k : Fin 3, r = .iec k → ∃ x, exec (.pop f) s = .next { u.finished p d n with iec := s.iec.set k x } ∧
        ∀ b : Nat, b < 16 → x.getLsbD b = if s.irqPresent (16 * k + b) then v.getLsbD b else (s.iec.get k).getLsbD b) ∧
      (r = .splim → exec (.pop f) s = .next { u.finished p d n with splim := v, splimArmed := true }) ∧
      (r = .disicnt → s.disicnt = 0 → exec (.pop f) s = .next { u.finished p d n with disicnt := 0 }) ∧
      (r = .disicnt → s.disicnt ≠ 0 → exec (.pop f) s = .next { u.finished p d n with disicnt := v.setWidth 14 }) ∧
      (∀ k, r = .w k → k ≠ 15 → exec (.pop f) s = .next ((u.putW k v).finished p d n)) ∧
      (r = .w 15 → exec (.pop f) s = .next { (s.putW 15 v).finished p d n with
        intcon1 := if v.toNat < 0x0800 then s.intcon1 ||| 0x0004 else s.intcon1 }) ∧
      (r = .rcon → ∃ x, exec (.pop f) s = .next { u.finished p (d + 1) n with trapr := x } ∧
        (v.getLsbD 15 = false → x = false) ∧ (v.getLsbD 15 = true → s.trapr = true → x = true)) ∧
      (r = .osccon → ∃ x, exec (.pop f) s = .next { u.finished p (d + 1) n with cf := x })

/-- R28, R29, R226, R212, R228, D6, V131: POP INTCON1: the enables are written; a written 0 clears a trap flag, but MATHERR not while an
overflow whose trap is enabled stands (D32), judged by the enables of before the write (log 19). Only on a device whose
parameter says so does a written 1 request a trap whose flag is 0: a hard one resets the device in a conflict, judged after the clears of the
same write (log 41), and of the two hard ones together either comes first (log 19), so that below level 13 they may conflict or not. -/
def Obligations.PopWritesIntcon1 : Prop :=
  ∀ s : State, s.stackHolds 1 →
    let v := s.dataWord (s.getW 15 - 2)
    let held := (s.sr.getLsbD 15 && s.intcon1.getLsbD 10) || (s.sr.getLsbD 14 && s.intcon1.getLsbD 9)
    let may := s.device.trapFlagSwSet
    let osc := may = true ∧ v.getLsbD 1 = true ∧ s.trapFlag .oscFail = false
    let addr := may = true ∧ v.getLsbD 3 = true ∧ s.trapFlag .addrErr = false
    let conflict := (osc ∧ 14 ≤ s.cpuIpl) ∨
      (addr ∧ (13 ≤ s.cpuIpl ∨ (s.trapFlag .oscFail = true ∧ v.getLsbD 1 = true)))
    let resets := exec (.pop 0x0040) s = .next (deviceReset .trapConflict { s with draws := s.draws + 1 })
    let writes := ∃ p d x, s.pcPast 1 p d ∧
      exec (.pop 0x0040) s = .next { (s.putW 15 (s.getW 15 - 2)).finished p (d + if may then 1 else 0)
        (cycles (.pop 0x0040) s) with intcon1 := x } ∧
      ∀ b, x.getLsbD b =
        if b = 15 ∨ b = 10 ∨ b = 9 ∨ b = 8 then v.getLsbD b
        else if b = 1 ∨ b = 2 ∨ b = 3 then v.getLsbD b && (s.intcon1.getLsbD b || may)
        else if b = 4 then (v.getLsbD b && (s.intcon1.getLsbD b || may)) || (s.intcon1.getLsbD b && held)
        else s.intcon1.getLsbD b
    (conflict → resets) ∧ (¬ conflict → ¬ (osc ∧ addr) → writes) ∧ (¬ conflict → osc ∧ addr → resets ∨ writes)

/-- R291, D13 (log 20): POP into IPCk is refused where it writes the field of an enabled source while user interrupts can be taken; else the
fields of the device's sources are written. -/
def Obligations.PopWritesPriorities : Prop :=
  ∀ (s : State) (n : Fin 12), s.stackHolds 1 →
    let v := s.dataWord (s.getW 15 - 2)
    let f : BitVec 15 := BitVec.ofNat 15 (0x4A + n)
    let onTheFly := s.cpuIpl < 7 ∧ ∃ j : Nat, j < 4 ∧ s.irqPresent (4 * n + j) = true ∧ s.irqEnable (4 * n + j) = true ∧
      (s.disicnt = 0 ∨ s.irqLevel (4 * n + j) = 7 ∨ (v.extractLsb' (4 * j) 3).toNat = 7)
    (onTheFly → exec (.pop f) s = .refused .priorityChangeWhileEnabled) ∧
    (¬ onTheFly → ∃ p d x, s.pcPast 1 p d ∧
      exec (.pop f) s = .next { (s.putW 15 (s.getW 15 - 2)).finished p d (cycles (.pop f) s) with ipc := s.ipc.set n x } ∧
      ∀ j b : Nat, j < 4 → b < 4 → x.getLsbD (4 * j + b) =
        if b < 3 ∧ s.irqPresent (4 * n + j) = true then v.getLsbD (4 * j + b) else (s.ipc.get n).getLsbD (4 * j + b))

/-- R178, R214 to R216 (logs 10, 11): MOV.D into pair W(2d), W(2d+1), from another pair or from two words that can be read, the lower word at
the lower address. The words are read after the pointer is modified, also where it holds its own register's address (log 36); after 0xFFFE
comes 0x0000 (log 38). Through W15 the limit and the wrap raise the stack error and the words are read all the same; so does a W15 loaded below
0x0800. -/
def Obligations.MovdLoadsThePair : Prop :=
  (∀ (s : State) (d : BitVec 3) (r : WReg),
    let lo := s.getW (r.extractLsb' 1 3 ++ 0#1)
    let hi := s.getW (r.extractLsb' 1 3 ++ 1#1)
    ∃ p e, s.pcPast 1 p e ∧
      exec (.movdLoad d .direct r) s = .next
        ((((s.putW (d ++ 0#1) lo).putW (d ++ 1#1) hi).stackError (d = 7 ∧ hi.toNat < 0x0800)).finished p e
          (cycles (.movdLoad d .direct r) s))) ∧
  (∀ (s : State) (d : BitVec 3) (m : AddrMode) (r : WReg) (lo hi : Word) (e1 e2 : Nat), m.isIndirect = true →
    let ea := (pointer m r 4 (start s)).1
    let u := (pointer m r 4 (start s)).2.st
    let u1 := u.stackError (s.pastLimit r ea)
    let u2 := ({ u1 with draws := u1.draws + e1 } : State).stackError ((r = 15 ∧ ea = 0xFFFE) ∨ s.pastLimit r (ea + 2))
    u1.readableAs ea lo e1 → u2.readableAs (ea + 2) hi e2 →
    ∃ p e, s.pcPast 1 p e ∧
      exec (.movdLoad d m r) s = .next
        ((((u2.putW (d ++ 0#1) lo).putW (d ++ 1#1) hi).stackError (d = 7 ∧ hi.toNat < 0x0800)).finished p (e2 + e)
          (cycles (.movdLoad d m r) s)))

/-- R178, R214 to R216 (logs 10, 11): MOV.D from pair W(2k), W(2k+1), to another pair or to two words of data memory: those four bytes and no
other, and none of a word that is not implemented (D27). Through W15 the limit and the wrap raise the stack error and the words are stored all
the same. At 0xFFFE the upper word goes to 0x0000, a W register there (log 38). -/
def Obligations.MovdStoresThePair : Prop :=
  ∀ (s : State) (k : BitVec 3),
    let lo := s.getW (k ++ 0#1)
    let hi := s.getW (k ++ 1#1)
    (∀ r : WReg, ∃ p e, s.pcPast 1 p e ∧
      exec (.movdStore .direct r k) s = .next
        ((((s.putW (r.extractLsb' 1 3 ++ 0#1) lo).putW (r.extractLsb' 1 3 ++ 1#1) hi).stackError
          (r.extractLsb' 1 3 = 7 ∧ hi.toNat < 0x0800)).finished p e (cycles (.movdStore .direct r k) s))) ∧
    (∀ (m : AddrMode) (r : WReg), m.isIndirect = true →
      let ea := (pointer m r 4 (start s)).1
      let u := (pointer m r 4 (start s)).2.st
      let first := Device.dataImplemented s.device ea.toNat = true
      let second := Device.dataImplemented s.device (ea.toNat + 2) = true
      ea.getLsbD 0 = false → 0x0800 ≤ ea.toNat →
      (ea.toNat + 3 < 0x10000 → ∃ p e t, s.pcPast 1 p e ∧ exec (.movdStore m r k) s = .next t ∧
        t = { (u.stackError (s.pastLimit r (ea + 2))).finished p e (cycles (.movdStore m r k) s) with data := t.data } ∧
        (first → t.dataWord ea = lo) ∧ (second → t.dataWord (ea + 2) = hi) ∧
        ∀ a, (first → a < ea.toNat ∨ ea.toNat + 2 ≤ a) → (second → a < ea.toNat + 2 ∨ ea.toNat + 4 ≤ a) →
          t.dataByte a = s.dataByte a) ∧
      (∀ n, ea = 0xFFFE → regAt s.device 0 = some (.w n) → ∃ p e t, s.pcPast 1 p e ∧ exec (.movdStore m r k) s = .next t ∧
        t = { ((u.putW n hi).stackError (r = 15 ∨ (n = 15 ∧ hi.toNat < 0x0800))).finished p e
          (cycles (.movdStore m r k) s) with data := t.data } ∧ (first → t.dataWord ea = lo) ∧
        ∀ a, (first → a < 0xFFFE ∨ 0x10000 ≤ a) → t.dataByte a = s.dataByte a))

/-- R178, R102, R291, R215 (logs 10, 11): MOV.D into two registers below 0x0800 writes them as software does, one after the other, the lower
word first, each after the limit check where the pointer is W15; over the pointer's own register it overwrites the modified value (log 36), and
an address error that a write of INTCON1 requests does not inhibit the second word (log 37). A priority changed on the fly is refused as by POP,
whether or not the field changes (log 20), and so is a second register that the spec does not list (log 21). Into IFS0 and IFS1 it writes the
bits of the device's sources. -/
def Obligations.MovdStoresIntoRegisters : Prop :=
  ∀ (s : State) (m : AddrMode) (r : WReg) (k : BitVec 3) (a : Reg), m.isIndirect = true →
    let i : Instr := .movdStore m r k
    let lo := s.getW (k ++ 0#1)
    let hi := s.getW (k ++ 1#1)
    let ea := (pointer m r 4 (start s)).1
    let u := (pointer m r 4 (start s)).2.st
    let checked (a : Word) (c : Cpu) : Cpu := stackLimit (decide (r = 15)) a c
    ea.getLsbD 0 = false → ea.toNat + 2 < 0x0800 → regAt s.device ea.toNat = some a →
    (∀ b, regAt s.device (ea.toNat + 2) = some b → exec i s = Run.outcome
      ((writeReg a true 0xFFFF lo (checked ea (start u))).bind fun _ c =>
        (writeReg b true 0xFFFF hi (checked (ea + 2) c)).bind fun _ c => .ok () (retire i s (advance 1 c)))) ∧
    (regAt s.device (ea.toNat + 2) = none → a ≠ .intcon1 → (∀ n, a ≠ .ipc n) → exec i s = .refused .unlistedRegister) ∧
    (∀ n : Fin 12, a = .ipc n → s.cpuIpl < 7 →
      (∃ j : Nat, j < 4 ∧ s.irqPresent (4 * n + j) = true ∧ s.irqEnable (4 * n + j) = true ∧
        (s.disicnt = 0 ∨ s.irqLevel (4 * n + j) = 7 ∨ (lo.extractLsb' (4 * j) 3).toNat = 7)) →
      exec i s = .refused .priorityChangeWhileEnabled) ∧
    (ea = 0x0084 → ∃ p d x y, s.pcPast 1 p d ∧
      exec i s = .next { (u.stackError (s.pastLimit r 0x0086)).finished p d (cycles i s) with ifs := (s.ifs.set 0 x).set 1 y } ∧
      ∀ b : Nat, b < 16 → x.getLsbD b = (if s.irqPresent b then lo.getLsbD b else (s.ifs.get 0).getLsbD b) ∧
        y.getLsbD b = if s.irqPresent (16 + b) then hi.getLsbD b else (s.ifs.get 1).getLsbD b)

/-- Log 10 (the family's modes), R214, R216: the address a mode gives and what it leaves in its register; through W15 the stack checks are
made on the sum and on the new pointer. The codes that the family leaves unused reset the device. -/
def Obligations.AddressingModesFollowTheFamily : Prop :=
  (∀ (s : State) (r : WReg) (size : Nat), (size = 2 ∨ size = 4) →
    let z := BitVec.ofNat 16 size
    let below := s.getW r - z
    let above := s.getW r + z
    let flagged (u : State) (bad : Prop) [Decidable bad] : State :=
      if r = 15 ∧ bad then { u with intcon1 := u.intcon1 ||| 0x0004 } else u
    let down := flagged (s.putW r below) ((s.getW r).toNat < size ∨ below.toNat < 0x0800)
    let up := flagged (s.putW r above) (0xFFFF < (s.getW r).toNat + size ∨ above.toNat < 0x0800)
    pointer .indirect r size (start s) = (s.getW r, start s) ∧
      pointer .postDec r size (start s) = (s.getW r, start down) ∧
      pointer .postInc r size (start s) = (s.getW r, start up) ∧
      pointer .preDec r size (start s) = (below, start down) ∧
      pointer .preInc r size (start s) = (above, start up)) ∧
  (∀ (s : State) (m : AddrMode), m.listed = false → ∀ (d : BitVec 3) (b : BitVec 4) (r : WReg),
    exec (.movdLoad d m r) s = .next (deviceReset .software s) ∧
      exec (.movdStore m r d) s = .next (deviceReset .software s) ∧
      exec (.btscW b m r) s = .next (deviceReset .software s) ∧
      exec (.btssW b m r) s = .next (deviceReset .software s))

/-! ### Bit tests -/

/-- R179, R180: the file forms. BTSC skips on a clear bit, BTSS on a set one; a skip passes over both words of a two-word instruction. Of the
rows of R133 that is GOTO alone; of other words CALL and DO, by the family's patterns (log 16). The length of a word that is not implemented is
read all the same (log 40). -/
def Obligations.BitTestOfFileSkips : Prop :=
  (∀ (s : State) (i : Instr) (bit : BitVec 4) (f : BitVec 12) (skipOn : Bool) (v : Word) (e : Nat),
    ((i = .btscF bit f ∧ skipOn = false) ∨ (i = .btssF bit f ∧ skipOn = true)) → s.readableAs (0#3 ++ f ++ 0#1) v e →
    ∃ p d, exec i s = .next (s.finished p (e + d) (cycles i s)) ∧
      s.pcPast (if v.getLsbD bit.toNat = skipOn then
        if isTwoWord (s.progRead (s.pc.toNat + 2)) then 3 else 2 else 1) p d) ∧
  (∀ (w w2 : ProgWord) (i : Instr), decode w w2 = .ok i → (isTwoWord w = true ↔ ∃ t, i = .goto t)) ∧
  (∀ t, isTwoWord (encodeWord1 (.goto t)) = true) ∧
  (∀ w : ProgWord, (∀ t, w ≠ encodeWord1 (.goto t)) → (isTwoWord w = true ↔
    (w.extractLsb' 16 8 = 0x02 ∧ w.getLsbD 0 = false) ∨
      (w.extractLsb' 16 8 = 0x08 ∧ (w.extractLsb' 14 2 = 0 ∨ w.extractLsb' 4 12 = 0x800))))

/-- R179, R180, R215 (log 10; log 16 for a skipped CALL or DO; log 40 for a skip over a word that is not implemented): the register forms, of the
register itself or of the word it points at, read after the pointer is modified, also where it holds its own register's address (log 36).
Through W15 beyond the limit the stack error is raised and the word is tested all the same. -/
def Obligations.BitTestOfOperandSkips : Prop :=
  ∀ (s : State) (i : Instr) (bit : BitVec 4) (m : AddrMode) (r : WReg) (skipOn : Bool),
    ((i = .btscW bit m r ∧ skipOn = false) ∨ (i = .btssW bit m r ∧ skipOn = true)) →
    (m = .direct → ∃ p d, exec i s = .next (s.finished p d (cycles i s)) ∧
      s.pcPast (if (s.getW r).getLsbD bit.toNat = skipOn then
        if isTwoWord (s.progRead (s.pc.toNat + 2)) then 3 else 2 else 1) p d) ∧
    (∀ (v : Word) (e : Nat), m.isIndirect = true →
      let ea := (pointer m r 2 (start s)).1
      let u := (pointer m r 2 (start s)).2.st.stackError (s.pastLimit r ea)
      u.readableAs ea v e →
      ∃ p d, exec i s = .next (u.finished p (e + d) (cycles i s)) ∧
        s.pcPast (if v.getLsbD bit.toNat = skipOn then
          if isTwoWord (s.progRead (s.pc.toNat + 2)) then 3 else 2 else 1) p d)

/-! ### Address errors, conflicts -/

/-- R221, R223, R208, R215, R216 (log 11: both words are tried): an instruction that raises the address error stores nothing and has its other
effects: MOV.D to an odd address, through any pointer, and PUSH of an unimplemented address. Where the raise is a conflict (R228) the device is
Reset. -/
def Obligations.AddressErrorInhibitsStores : Prop :=
  (∀ (s : State) (m : AddrMode) (r : WReg) (k : BitVec 3), m.isIndirect = true →
    let ea := (pointer m r 4 (start s)).1
    let u := (pointer m r 4 (start s)).2.st
    ea.getLsbD 0 = true →
    (s.conflicts .addrErr = false → ∃ p e, s.pcPast 1 p e ∧ exec (.movdStore m r k) s = .next
      { u.finished p e (cycles (.movdStore m r k) s) with
        intcon1 := u.intcon1 |||
          if (r = 15 ∧ ea = 0xFFFF) ∨ s.pastLimit r ea ∨ s.pastLimit r (ea + 2) then 0x000C else 0x0008 }) ∧
    (s.conflicts .addrErr = true → exec (.movdStore m r k) s = .next (deviceReset .trapConflict u))) ∧
  (∀ (s : State) (f : BitVec 15), s.stackRoom 1 → 0x0800 ≤ (f ++ 0#1).toNat →
    Device.dataImplemented s.device (f ++ 0#1).toNat = false →
    (s.conflicts .addrErr = false → ∃ p e, s.pcPast 1 p e ∧ exec (.push f) s = .next
      { (s.putW 15 (s.getW 15 + 2)).finished p (e + 1) (cycles (.push f) s) with intcon1 := s.intcon1 ||| 0x0008 }) ∧
    (s.conflicts .addrErr = true → exec (.push f) s = .next (deviceReset .trapConflict s)))

/-- R221, R208, R215, R216, U6 (log 1; logs 16, 40 for the length of a skip): a read that raises the address error returns a free value, and
the instruction completes with it: MOV.D of a word at an odd or an unimplemented address, where the other word is read all the same, the lower
word at the lower address (log 11), and, if it can be read, is the one in memory; a bit test through an odd pointer (scenario 2), or of
unimplemented data space; a pop by POP, which then writes nothing, RETURN or RETFIE (log 33) from unimplemented data space. Where the raise is
a conflict (R228) the device is Reset. -/
def Obligations.AddressErrorReadsAreFree : Prop :=
  (∀ (s : State) (d : BitVec 3) (m : AddrMode) (r : WReg), m.isIndirect = true →
    let ea := (pointer m r 4 (start s)).1
    let u := (pointer m r 4 (start s)).2.st
    let first := ea.getLsbD 0 = true ∨ Device.dataImplemented s.device ea.toNat = false
    let second := ea.getLsbD 0 = true ∨ Device.dataImplemented s.device (ea.toNat + 2) = false
    (ea.getLsbD 0 = true ∨ (0x0800 ≤ ea.toNat ∧ ea.toNat + 3 < 0x10000 ∧ (first ∨ second))) →
    (s.conflicts .addrErr = false → ∃ lo hi p e, s.pcPast 1 p e ∧ (¬ first → lo = s.dataWord ea) ∧
      (¬ second → hi = s.dataWord (ea + 2)) ∧ exec (.movdLoad d m r) s = .next
        { ((u.putW (d ++ 0#1) lo).putW (d ++ 1#1) hi).finished p
            ((if first then 1 else 0) + (if second then 1 else 0) + e) (cycles (.movdLoad d m r) s) with
          intcon1 := u.intcon1 ||| if (d = 7 ∧ hi.toNat < 0x0800) ∨ (r = 15 ∧ ea = 0xFFFF) ∨ s.pastLimit r ea ∨
            s.pastLimit r (ea + 2) then 0x000C else 0x0008 }) ∧
    (s.conflicts .addrErr = true → exec (.movdLoad d m r) s = .next (deviceReset .trapConflict u))) ∧
  (∀ (s : State) (i : Instr) (bit : BitVec 4) (m : AddrMode) (r : WReg) (skipOn : Bool),
    ((i = .btscW bit m r ∧ skipOn = false) ∨ (i = .btssW bit m r ∧ skipOn = true)) → m.isIndirect = true →
    let ea := (pointer m r 2 (start s)).1
    let u := (pointer m r 2 (start s)).2.st
    (ea.getLsbD 0 = true ∨ (0x0800 ≤ ea.toNat ∧ Device.dataImplemented s.device ea.toNat = false)) →
    (s.conflicts .addrErr = false → ∃ (v : Word) (p : PC) (e : Nat), s.pcPast (if v.getLsbD bit.toNat = skipOn then
        if isTwoWord (s.progRead (s.pc.toNat + 2)) then 3 else 2 else 1) p e ∧
      exec i s = .next { u.finished p (e + 1) (cycles i s) with
        intcon1 := u.intcon1 ||| if s.pastLimit r ea then 0x000C else 0x0008 }) ∧
    (s.conflicts .addrErr = true → exec i s = .next (deviceReset .trapConflict u))) ∧
  (∀ (s : State) (i : Instr) (bit : BitVec 4) (f : BitVec 12) (skipOn : Bool),
    ((i = .btscF bit f ∧ skipOn = false) ∨ (i = .btssF bit f ∧ skipOn = true)) → 0x0800 ≤ (0#3 ++ f ++ 0#1).toNat →
    Device.dataImplemented s.device (0#3 ++ f ++ 0#1).toNat = false →
    (s.conflicts .addrErr = false → ∃ (v : Word) (p : PC) (e : Nat), s.pcPast (if v.getLsbD bit.toNat = skipOn then
        if isTwoWord (s.progRead (s.pc.toNat + 2)) then 3 else 2 else 1) p e ∧
      exec i s = .next { s.finished p (e + 1) (cycles i s) with intcon1 := s.intcon1 ||| 0x0008 }) ∧
    (s.conflicts .addrErr = true → exec i s = .next (deviceReset .trapConflict s))) ∧
  (∀ s : State, (s.getW 15).getLsbD 0 = false →
    let at1 := s.getW 15 - 2
    let at2 := s.getW 15 - 4
    let first := Device.dataImplemented s.device at1.toNat = false
    let second := Device.dataImplemented s.device at2.toNat = false
    let flagged := s.intcon1 ||| if s.pastLimit 15 at1 then 0x000C else 0x0008
    (∀ f, 0x0802 ≤ (s.getW 15).toNat → first →
      (s.conflicts .addrErr = false → ∃ p d, s.pcPast 1 p d ∧ exec (.pop f) s = .next
        { (s.putW 15 at1).finished p (d + 1) (cycles (.pop f) s) with intcon1 := flagged }) ∧
      (s.conflicts .addrErr = true → exec (.pop f) s = .next (deviceReset .trapConflict s))) ∧
    (0x0804 ≤ (s.getW 15).toNat → first ∨ second →
      (s.conflicts .addrErr = false → ∃ hi lo c : Word, (¬ first → hi = s.dataWord at1) ∧ (¬ second → lo = s.dataWord at2) ∧
        (∀ b, c.getLsbD b = if b = 3 then hi.getLsbD 7 else s.corcon.getLsbD b) ∧
        let target := hi.extractLsb' 0 7 ++ lo.extractLsb' 1 15 ++ 0#1
        let free := (if first then 1 else 0) + (if second then 1 else 0)
        exec .returnSub s = .next
          { (s.putW 15 at2).finished target free (cycles .returnSub s) with intcon1 := flagged } ∧
        exec .retfie s = .next { (s.putW 15 at2).finished target free 3 with
          intcon1 := flagged, sr := s.sr.extractLsb' 8 8 ++ hi.extractLsb' 8 8, corcon := c }) ∧
      (s.conflicts .addrErr = true → exec .returnSub s = .next (deviceReset .trapConflict s) ∧
        exec .retfie s = .next (deviceReset .trapConflict s))))

/-- R212, R228: what detecting a trap condition does, inside an instruction and outside one: a hard trap whose level the CPU has reached
(at an equal level too, the spec's own decision D14, log 27), or with a greater trap pending, resets the device and sets TRAPR; every other
sets its flag and changes nothing else. -/
def Obligations.HardTrapConflictResets : Prop :=
  ∀ (s : State) (τ : Trap),
    let conflict := 13 ≤ τ.level ∧
      (τ.level ≤ s.cpuIpl ∨ ∃ τ' : Trap, τ.level < τ'.level ∧ s.trapFlag τ' = true ∧ s.cpuIpl < τ'.level)
    let flag : Word := match τ with
      | .oscFail => 0x0002
      | .stkErr => 0x0004
      | .addrErr => 0x0008
      | .mathErr => 0x0010
    (s.conflicts τ = true ↔ conflict) ∧
      (conflict → s.raiseTrap τ = deviceReset .trapConflict s ∧ (s.raiseTrap τ).trapr = true ∧
        ∀ c : Cpu, c.st = s → raise τ c = .reset (deviceReset .trapConflict s)) ∧
      (¬ conflict → s.raiseTrap τ = { s with intcon1 := s.intcon1 ||| flag } ∧
        ∀ c : Cpu, c.st = s → raise τ c = .ok () { c with st := { s with intcon1 := s.intcon1 ||| flag } })

/-! ### Events and wake-up -/

/-- R9, R35, R230, R252, R225, R282 (log 7): an event at the head of the schedule takes a step of its own: a peripheral's request, an edge
at a pin of the polarity INTkEP selects, an oscillator failure that the device's configuration allows, a Reset. That an oscillator failure sets
CF before it raises, so that the Reset of a conflict leaves CF 0, is the model's reading (log 25). -/
def Obligations.InputEventsTakeAStepOfTheirOwn : Prop :=
  ∀ (s : State) (rest : List (Option InputEvent)),
    let after (e : InputEvent) := step { s with inputs := some e :: rest }
    let u : State := { s with inputs := rest }
    (∀ i, (s.irqPresent i = false → after (.peripheral i) = .next u) ∧
      (s.irqPresent i = true → ∃ x, after (.peripheral i) = .next { u with ifs := x } ∧
        ∀ j, ({ u with ifs := x } : State).irqFlag j = (s.irqFlag j || decide (j = i)))) ∧
    (∀ (k : Fin 5) (level : Bool), ∃ x y, after (.pin k level) = .next { u with ifs := x, pinPrev := y } ∧
      (∀ j, y.getLsbD j = if j = k then level else s.pinPrev.getLsbD j) ∧
      ∀ j, ({ u with ifs := x, pinPrev := y } : State).irqFlag j = (s.irqFlag j ||
        (decide (j = [0, 16, 23, 36, 37].getD k 0) && s.irqPresent j && (s.pinPrev.getLsbD k != level) &&
          (s.intcon2.getLsbD k != level)))) ∧
    (∀ c, after (.oscFail c) = .next (
      if (c ≠ .pllLockLoss → s.device.fscmEnabled = true) ∧ (c ≠ .clockLoss → s.device.pllInUse = true) then
        ({ u with cf := true } : State).raiseTrap .oscFail else u)) ∧
    after .externalReset = .next (deviceReset .external u)

/-- R250, R171, D28: asleep, a source that is flagged and enabled at level 1 or more wakes the machine, whatever IPL and DISICNT are;
otherwise nothing changes. -/
def Obligations.EnabledSourceWakesTheMachine : Prop :=
  ∀ s : State, s.quiet → s.runState ≠ .running →
    ((∃ i, s.irqPresent i = true ∧ s.irqFlag i = true ∧ s.irqEnable i = true ∧ 1 ≤ s.irqLevel i) →
      step s = .next { s.onward with runState := .running }) ∧
    ((∀ i, s.irqPresent i = true → s.irqFlag i = true → s.irqEnable i = true → s.irqLevel i = 0) →
      step s = .next s.onward)

/-! ### Tables, registers, operations without a row -/

/-- R64, R20, R4: Table 6-3's registers stand at its addresses on every device, and the others of the device of Reset where R4 puts them
(log 2); 0x008A and 0x0092 are holes. An access below 0x0800 that meets no register, an entry's first push too, is refused (U10, log
21), whatever DATA_IMPLEMENTED says there (log 39). -/
def Obligations.RegisterMapFollowsTheTable : Prop :=
  (∀ d : Device, regAt d 0x0080 = some .intcon1 ∧ regAt d 0x0082 = some .intcon2 ∧
    (∀ k : Fin 3, regAt d (0x0084 + 2 * k) = some (.ifs k) ∧ regAt d (0x008C + 2 * k) = some (.iec k)) ∧
    (∀ k : Fin 12, regAt d (0x0094 + 2 * k) = some (.ipc k))) ∧
  (∀ d : Device, d = Device.default → regAt d 0x0042 = some .sr ∧ regAt d 0x0044 = some .corcon ∧
      regAt d 0x0052 = some .disicnt ∧ regAt d 0x0020 = some .splim ∧ regAt d 0x0740 = some .rcon ∧
      regAt d 0x0742 = some .osccon ∧
      (∀ r : WReg, regAt d (2 * r.toNat) = some (.w r)) ∧ regAt d 0x008A = none ∧ regAt d 0x0092 = none) ∧
  (∀ s : State,
    (∀ f : BitVec 15, (f ++ 0#1).toNat < 0x0800 → regAt s.device (f ++ 0#1).toNat = none →
      exec (.push f) s = .refused .unlistedRegister ∧
        (s.stackHolds 1 → exec (.pop f) s = .refused .unlistedRegister)) ∧
    ((s.getW 15).getLsbD 0 = false → (s.getW 15).toNat < 0x0800 → regAt s.device (s.getW 15).toNat = none →
      (∀ (f : BitVec 15) (v : Word) (e : Nat), s.readableAs (f ++ 0#1) v e → exec (.push f) s = .refused .unlistedRegister) ∧
      ∀ cand, takeException cand s = .refused .unlistedRegister) ∧
    (∀ (bit : BitVec 4) (f : BitVec 12), (0#3 ++ f ++ 0#1).toNat < 0x0800 → regAt s.device (0#3 ++ f ++ 0#1).toNat = none →
      exec (.btscF bit f) s = .refused .unlistedRegister ∧ exec (.btssF bit f) s = .refused .unlistedRegister) ∧
    (∀ (m : AddrMode) (r : WReg) (bit : BitVec 4), m.isIndirect = true →
      let ea := (pointer m r 2 (start s)).1
      ea.getLsbD 0 = false → ea.toNat < 0x0800 → regAt s.device ea.toNat = none →
      exec (.btscW bit m r) s = .refused .unlistedRegister ∧ exec (.btssW bit m r) s = .refused .unlistedRegister) ∧
    (∀ (m : AddrMode) (r : WReg) (k : BitVec 3), m.isIndirect = true →
      let ea := (pointer m r 4 (start s)).1
      ea.getLsbD 0 = false → ea.toNat < 0x0800 → regAt s.device ea.toNat = none →
      exec (.movdLoad k m r) s = .refused .unlistedRegister ∧ exec (.movdStore m r k) s = .refused .unlistedRegister))

/-- R200 to R203, R206, R207: the level, class, vector and addresses of every source; that no candidate has a reserved vector (0, 5 to 7, 53 to
61) is the spec's own decision D11 (R229, log 27). -/
def Obligations.VectorsAndLevelsFollowTheTables : Prop :=
  ∀ s : State,
    ([Trap.oscFail, .addrErr, .stkErr, .mathErr].map fun τ => (τ.level, τ.hard, Candidate.vector (.trap τ))) =
      [(14, true, 1), (13, true, 2), (12, false, 3), (11, false, 4)] ∧
    (∀ i, Candidate.vector (.irq i) = i + 8) ∧
    (∀ v, v < 62 → (s.intcon2.getLsbD 15 = false → s.vectorAddr v = 0x000004 + 2 * v ∧ s.vectorAddr v ≤ 0x00007E) ∧
      (s.intcon2.getLsbD 15 = true → s.vectorAddr v = 0x000084 + 2 * v ∧ s.vectorAddr v ≤ 0x0000FE)) ∧
    (∀ c : Candidate, c.vector ≠ 0 ∧ c.vector ≠ 5 ∧ c.vector ≠ 6 ∧ c.vector ≠ 7) ∧
    (∀ c : Candidate, s.candidate = some c → c.vector ≤ 52)

/-- R6, R20, R31, R57, R59, R60, R65: what software reads of a register; reading changes nothing but the counter of free values; in a state
that meets the invariant the unimplemented bits read 0. -/
def Obligations.RegisterReadsShowTheState : Prop :=
  ∀ s : State,
    let read (r : Reg) : Word := (readReg r (start s)).1
    (∀ r, ((readReg r (start s)).2 = start s ∨ (readReg r (start s)).2 = start { s with draws := s.draws + 1 })) ∧
    (∀ r, read (.w r) = s.getW r) ∧
    (∀ b, b < 16 → (read .intcon2).getLsbD b = if b = 14 then decide (s.disicnt ≠ 0) else s.intcon2.getLsbD b) ∧
    (read .disicnt).toNat = s.disicnt.toNat ∧ (read .rcon).getLsbD 15 = s.trapr ∧ (read .osccon).getLsbD 3 = s.cf ∧
    (∀ i : Nat, i < 45 → ∃ n : Fin 3, n.val = i / 16 ∧
      (read (.ifs n)).getLsbD (i % 16) = (s.irqFlag i && s.irqPresent i) ∧
      (read (.iec n)).getLsbD (i % 16) = (s.irqEnable i && s.irqPresent i)) ∧
    (∀ i : Nat, i < 45 → ∃ n : Fin 12, n.val = i / 4 ∧
      ((read (.ipc n)).extractLsb' (4 * (i % 4)) 3).toNat = (if s.irqPresent i then s.irqLevel i else 0) ∧
      (read (.ipc n)).getLsbD (4 * (i % 4) + 3) = false) ∧
    read .sr = s.sr ∧ read .corcon = s.corcon ∧ read .intcon1 = s.intcon1 ∧ read .splim = s.splim ∧
    (s.Inv → read .intcon1 &&& 0x78E1 = 0 ∧ read .intcon2 &&& 0x3FE0 = 0 ∧ read .corcon &&& 0xE000 = 0 ∧
      read (.ifs 2) &&& 0xE000 = 0 ∧ read (.iec 2) &&& 0xE000 = 0 ∧ (∀ n, read (.ipc n) &&& 0x8888 = 0) ∧
      read (.ipc 11) &&& 0xFFF8 = 0)

/-- R186, R226, R185, R27, R224 (log 28): the operations the spec names and gives no row: the dummy operation clears OA or OB, leaves SA
or SB, OAB and SAB free (log 12) and raises nothing; 0xE0 ORed into SRL sets IPL<2:0> to 7 unless NSTDIS is 1; a MAC fetch from the other
space raises the address error. -/
def Obligations.OperationsWithoutARow : Prop :=
  (∀ (x : AccSel) (s : State), ∃ v, dummyAccumulatorOperation x (start s) = start { s with sr := v, draws := s.draws + 3 } ∧
    v.getLsbD (ovfBit x) = false ∧
    ∀ b, b ≠ ovfBit x → b ≠ satBit x → b ≠ 11 → b ≠ 10 → v.getLsbD b = s.sr.getLsbD b) ∧
  (∀ (s : State) (ea : Word), ea.getLsbD 0 = false → ea.toNat < 0x0800 → regAt s.device ea.toNat = some .sr →
    ∃ v, orByte ea 0xE0 (start s) = .ok () (start { s with sr := v }) ∧
      (∀ b, v.getLsbD b = if 5 ≤ b ∧ b ≤ 7 ∧ s.nstdis = false then true else s.sr.getLsbD b) ∧
      (s.nstdis = false → ({ s with sr := v } : State).winner = none)) ∧
  (∀ (y : Bool) (ea : Word) (s : State), ea.getLsbD 0 = false → 0x0800 ≤ ea.toNat →
    Device.dataImplemented s.device ea.toNat = true →
    (inRanges s.device.ySpace ea.toNat = y → macFetch y ea false (start s) = .ok (s.dataWord ea) (start s)) ∧
    (inRanges s.device.ySpace ea.toNat ≠ y → s.conflicts .addrErr = false → ∃ v c, macFetch y ea false (start s) = .ok v c ∧
      c.st = { s with intcon1 := s.intcon1 ||| 0x0008, draws := s.draws + 1 } ∧ c.inhibit = true))
end

