-- ==== Sys2Proof/Laws/State.lean ====
section
/-! SUPPORT. What each named update of the state does to each field: one lemma per field per update, by rfl. -/

namespace Sys2Proof.Machine

/-! ### putW -/

@[simp] theorem putW_w (s : State) (r : WReg) (v : Word) : (s.putW r v).w = s.w.set r.toNat v := rfl
@[simp] theorem putW_pc (s : State) (r : WReg) (v : Word) : (s.putW r v).pc = s.pc := rfl
@[simp] theorem putW_sr (s : State) (r : WReg) (v : Word) : (s.putW r v).sr = s.sr := rfl
@[simp] theorem putW_corcon (s : State) (r : WReg) (v : Word) : (s.putW r v).corcon = s.corcon := rfl
@[simp] theorem putW_intcon1 (s : State) (r : WReg) (v : Word) : (s.putW r v).intcon1 = s.intcon1 := rfl
@[simp] theorem putW_intcon2 (s : State) (r : WReg) (v : Word) : (s.putW r v).intcon2 = s.intcon2 := rfl
@[simp] theorem putW_ifs (s : State) (r : WReg) (v : Word) : (s.putW r v).ifs = s.ifs := rfl
@[simp] theorem putW_iec (s : State) (r : WReg) (v : Word) : (s.putW r v).iec = s.iec := rfl
@[simp] theorem putW_ipc (s : State) (r : WReg) (v : Word) : (s.putW r v).ipc = s.ipc := rfl
@[simp] theorem putW_disicnt (s : State) (r : WReg) (v : Word) : (s.putW r v).disicnt = s.disicnt := rfl
@[simp] theorem putW_splim (s : State) (r : WReg) (v : Word) : (s.putW r v).splim = s.splim := rfl
@[simp] theorem putW_splimArmed (s : State) (r : WReg) (v : Word) : (s.putW r v).splimArmed = s.splimArmed := rfl
@[simp] theorem putW_trapr (s : State) (r : WReg) (v : Word) : (s.putW r v).trapr = s.trapr := rfl
@[simp] theorem putW_cf (s : State) (r : WReg) (v : Word) : (s.putW r v).cf = s.cf := rfl
@[simp] theorem putW_accA (s : State) (r : WReg) (v : Word) : (s.putW r v).accA = s.accA := rfl
@[simp] theorem putW_accB (s : State) (r : WReg) (v : Word) : (s.putW r v).accB = s.accB := rfl
@[simp] theorem putW_runState (s : State) (r : WReg) (v : Word) : (s.putW r v).runState = s.runState := rfl
@[simp] theorem putW_pinPrev (s : State) (r : WReg) (v : Word) : (s.putW r v).pinPrev = s.pinPrev := rfl
@[simp] theorem putW_acceptAge (s : State) (r : WReg) (v : Word) : (s.putW r v).acceptAge = s.acceptAge := rfl
@[simp] theorem putW_bufferPc (s : State) (r : WReg) (v : Word) : (s.putW r v).bufferPc = s.bufferPc := rfl
@[simp] theorem putW_bufferSrl (s : State) (r : WReg) (v : Word) : (s.putW r v).bufferSrl = s.bufferSrl := rfl
@[simp] theorem putW_loop (s : State) (r : WReg) (v : Word) : (s.putW r v).loop = s.loop := rfl
@[simp] theorem putW_data (s : State) (r : WReg) (v : Word) : (s.putW r v).data = s.data := rfl
@[simp] theorem putW_prog (s : State) (r : WReg) (v : Word) : (s.putW r v).prog = s.prog := rfl
@[simp] theorem putW_device (s : State) (r : WReg) (v : Word) : (s.putW r v).device = s.device := rfl
@[simp] theorem putW_draws (s : State) (r : WReg) (v : Word) : (s.putW r v).draws = s.draws := rfl
@[simp] theorem putW_epoch (s : State) (r : WReg) (v : Word) : (s.putW r v).epoch = s.epoch := rfl
@[simp] theorem putW_inputs (s : State) (r : WReg) (v : Word) : (s.putW r v).inputs = s.inputs := rfl

/-! ### flagTrap -/

@[simp] theorem flagTrap_w (s : State) (t : Trap) : (s.flagTrap t).w = s.w := rfl
@[simp] theorem flagTrap_pc (s : State) (t : Trap) : (s.flagTrap t).pc = s.pc := rfl
@[simp] theorem flagTrap_sr (s : State) (t : Trap) : (s.flagTrap t).sr = s.sr := rfl
@[simp] theorem flagTrap_corcon (s : State) (t : Trap) : (s.flagTrap t).corcon = s.corcon := rfl
@[simp] theorem flagTrap_intcon1 (s : State) (t : Trap) : (s.flagTrap t).intcon1 = setBit s.intcon1 t.flagBit true := rfl
@[simp] theorem flagTrap_intcon2 (s : State) (t : Trap) : (s.flagTrap t).intcon2 = s.intcon2 := rfl
@[simp] theorem flagTrap_ifs (s : State) (t : Trap) : (s.flagTrap t).ifs = s.ifs := rfl
@[simp] theorem flagTrap_iec (s : State) (t : Trap) : (s.flagTrap t).iec = s.iec := rfl
@[simp] theorem flagTrap_ipc (s : State) (t : Trap) : (s.flagTrap t).ipc = s.ipc := rfl
@[simp] theorem flagTrap_disicnt (s : State) (t : Trap) : (s.flagTrap t).disicnt = s.disicnt := rfl
@[simp] theorem flagTrap_splim (s : State) (t : Trap) : (s.flagTrap t).splim = s.splim := rfl
@[simp] theorem flagTrap_splimArmed (s : State) (t : Trap) : (s.flagTrap t).splimArmed = s.splimArmed := rfl
@[simp] theorem flagTrap_trapr (s : State) (t : Trap) : (s.flagTrap t).trapr = s.trapr := rfl
@[simp] theorem flagTrap_cf (s : State) (t : Trap) : (s.flagTrap t).cf = s.cf := rfl
@[simp] theorem flagTrap_accA (s : State) (t : Trap) : (s.flagTrap t).accA = s.accA := rfl
@[simp] theorem flagTrap_accB (s : State) (t : Trap) : (s.flagTrap t).accB = s.accB := rfl
@[simp] theorem flagTrap_runState (s : State) (t : Trap) : (s.flagTrap t).runState = s.runState := rfl
@[simp] theorem flagTrap_pinPrev (s : State) (t : Trap) : (s.flagTrap t).pinPrev = s.pinPrev := rfl
@[simp] theorem flagTrap_acceptAge (s : State) (t : Trap) : (s.flagTrap t).acceptAge = s.acceptAge := rfl
@[simp] theorem flagTrap_bufferPc (s : State) (t : Trap) : (s.flagTrap t).bufferPc = s.bufferPc := rfl
@[simp] theorem flagTrap_bufferSrl (s : State) (t : Trap) : (s.flagTrap t).bufferSrl = s.bufferSrl := rfl
@[simp] theorem flagTrap_loop (s : State) (t : Trap) : (s.flagTrap t).loop = s.loop := rfl
@[simp] theorem flagTrap_data (s : State) (t : Trap) : (s.flagTrap t).data = s.data := rfl
@[simp] theorem flagTrap_prog (s : State) (t : Trap) : (s.flagTrap t).prog = s.prog := rfl
@[simp] theorem flagTrap_device (s : State) (t : Trap) : (s.flagTrap t).device = s.device := rfl
@[simp] theorem flagTrap_draws (s : State) (t : Trap) : (s.flagTrap t).draws = s.draws := rfl
@[simp] theorem flagTrap_epoch (s : State) (t : Trap) : (s.flagTrap t).epoch = s.epoch := rfl
@[simp] theorem flagTrap_inputs (s : State) (t : Trap) : (s.flagTrap t).inputs = s.inputs := rfl

/-! ### storeWord -/

@[simp] theorem storeWord_w (s : State) (a v : Word) : (s.storeWord a v).w = s.w := rfl
@[simp] theorem storeWord_pc (s : State) (a v : Word) : (s.storeWord a v).pc = s.pc := rfl
@[simp] theorem storeWord_sr (s : State) (a v : Word) : (s.storeWord a v).sr = s.sr := rfl
@[simp] theorem storeWord_corcon (s : State) (a v : Word) : (s.storeWord a v).corcon = s.corcon := rfl
@[simp] theorem storeWord_intcon1 (s : State) (a v : Word) : (s.storeWord a v).intcon1 = s.intcon1 := rfl
@[simp] theorem storeWord_intcon2 (s : State) (a v : Word) : (s.storeWord a v).intcon2 = s.intcon2 := rfl
@[simp] theorem storeWord_ifs (s : State) (a v : Word) : (s.storeWord a v).ifs = s.ifs := rfl
@[simp] theorem storeWord_iec (s : State) (a v : Word) : (s.storeWord a v).iec = s.iec := rfl
@[simp] theorem storeWord_ipc (s : State) (a v : Word) : (s.storeWord a v).ipc = s.ipc := rfl
@[simp] theorem storeWord_disicnt (s : State) (a v : Word) : (s.storeWord a v).disicnt = s.disicnt := rfl
@[simp] theorem storeWord_splim (s : State) (a v : Word) : (s.storeWord a v).splim = s.splim := rfl
@[simp] theorem storeWord_splimArmed (s : State) (a v : Word) : (s.storeWord a v).splimArmed = s.splimArmed := rfl
@[simp] theorem storeWord_trapr (s : State) (a v : Word) : (s.storeWord a v).trapr = s.trapr := rfl
@[simp] theorem storeWord_cf (s : State) (a v : Word) : (s.storeWord a v).cf = s.cf := rfl
@[simp] theorem storeWord_accA (s : State) (a v : Word) : (s.storeWord a v).accA = s.accA := rfl
@[simp] theorem storeWord_accB (s : State) (a v : Word) : (s.storeWord a v).accB = s.accB := rfl
@[simp] theorem storeWord_runState (s : State) (a v : Word) : (s.storeWord a v).runState = s.runState := rfl
@[simp] theorem storeWord_pinPrev (s : State) (a v : Word) : (s.storeWord a v).pinPrev = s.pinPrev := rfl
@[simp] theorem storeWord_acceptAge (s : State) (a v : Word) : (s.storeWord a v).acceptAge = s.acceptAge := rfl
@[simp] theorem storeWord_bufferPc (s : State) (a v : Word) : (s.storeWord a v).bufferPc = s.bufferPc := rfl
@[simp] theorem storeWord_bufferSrl (s : State) (a v : Word) : (s.storeWord a v).bufferSrl = s.bufferSrl := rfl
@[simp] theorem storeWord_loop (s : State) (a v : Word) : (s.storeWord a v).loop = s.loop := rfl
@[simp] theorem storeWord_data (s : State) (a v : Word) : (s.storeWord a v).data = (s.data.write a.toNat (v.extractLsb' 0 8)).write (a.toNat + 1) (v.extractLsb' 8 8) := rfl
@[simp] theorem storeWord_prog (s : State) (a v : Word) : (s.storeWord a v).prog = s.prog := rfl
@[simp] theorem storeWord_device (s : State) (a v : Word) : (s.storeWord a v).device = s.device := rfl
@[simp] theorem storeWord_draws (s : State) (a v : Word) : (s.storeWord a v).draws = s.draws := rfl
@[simp] theorem storeWord_epoch (s : State) (a v : Word) : (s.storeWord a v).epoch = s.epoch := rfl
@[simp] theorem storeWord_inputs (s : State) (a v : Word) : (s.storeWord a v).inputs = s.inputs := rfl

/-! ### putAcc -/

@[simp] theorem putAcc_w (s : State) (x : AccSel) (v : Acc) : (s.putAcc x v).w = s.w := by cases x <;> rfl
@[simp] theorem putAcc_pc (s : State) (x : AccSel) (v : Acc) : (s.putAcc x v).pc = s.pc := by cases x <;> rfl
@[simp] theorem putAcc_sr (s : State) (x : AccSel) (v : Acc) : (s.putAcc x v).sr = s.sr := by cases x <;> rfl
@[simp] theorem putAcc_corcon (s : State) (x : AccSel) (v : Acc) : (s.putAcc x v).corcon = s.corcon := by cases x <;> rfl
@[simp] theorem putAcc_intcon1 (s : State) (x : AccSel) (v : Acc) : (s.putAcc x v).intcon1 = s.intcon1 := by cases x <;> rfl
@[simp] theorem putAcc_intcon2 (s : State) (x : AccSel) (v : Acc) : (s.putAcc x v).intcon2 = s.intcon2 := by cases x <;> rfl
@[simp] theorem putAcc_ifs (s : State) (x : AccSel) (v : Acc) : (s.putAcc x v).ifs = s.ifs := by cases x <;> rfl
@[simp] theorem putAcc_iec (s : State) (x : AccSel) (v : Acc) : (s.putAcc x v).iec = s.iec := by cases x <;> rfl
@[simp] theorem putAcc_ipc (s : State) (x : AccSel) (v : Acc) : (s.putAcc x v).ipc = s.ipc := by cases x <;> rfl
@[simp] theorem putAcc_disicnt (s : State) (x : AccSel) (v : Acc) : (s.putAcc x v).disicnt = s.disicnt := by cases x <;> rfl
@[simp] theorem putAcc_splim (s : State) (x : AccSel) (v : Acc) : (s.putAcc x v).splim = s.splim := by cases x <;> rfl
@[simp] theorem putAcc_splimArmed (s : State) (x : AccSel) (v : Acc) : (s.putAcc x v).splimArmed = s.splimArmed := by cases x <;> rfl
@[simp] theorem putAcc_trapr (s : State) (x : AccSel) (v : Acc) : (s.putAcc x v).trapr = s.trapr := by cases x <;> rfl
@[simp] theorem putAcc_cf (s : State) (x : AccSel) (v : Acc) : (s.putAcc x v).cf = s.cf := by cases x <;> rfl
@[simp] theorem putAcc_runState (s : State) (x : AccSel) (v : Acc) : (s.putAcc x v).runState = s.runState := by cases x <;> rfl
@[simp] theorem putAcc_pinPrev (s : State) (x : AccSel) (v : Acc) : (s.putAcc x v).pinPrev = s.pinPrev := by cases x <;> rfl
@[simp] theorem putAcc_acceptAge (s : State) (x : AccSel) (v : Acc) : (s.putAcc x v).acceptAge = s.acceptAge := by cases x <;> rfl
@[simp] theorem putAcc_bufferPc (s : State) (x : AccSel) (v : Acc) : (s.putAcc x v).bufferPc = s.bufferPc := by cases x <;> rfl
@[simp] theorem putAcc_bufferSrl (s : State) (x : AccSel) (v : Acc) : (s.putAcc x v).bufferSrl = s.bufferSrl := by cases x <;> rfl
@[simp] theorem putAcc_loop (s : State) (x : AccSel) (v : Acc) : (s.putAcc x v).loop = s.loop := by cases x <;> rfl
@[simp] theorem putAcc_data (s : State) (x : AccSel) (v : Acc) : (s.putAcc x v).data = s.data := by cases x <;> rfl
@[simp] theorem putAcc_prog (s : State) (x : AccSel) (v : Acc) : (s.putAcc x v).prog = s.prog := by cases x <;> rfl
@[simp] theorem putAcc_device (s : State) (x : AccSel) (v : Acc) : (s.putAcc x v).device = s.device := by cases x <;> rfl
@[simp] theorem putAcc_draws (s : State) (x : AccSel) (v : Acc) : (s.putAcc x v).draws = s.draws := by cases x <;> rfl
@[simp] theorem putAcc_epoch (s : State) (x : AccSel) (v : Acc) : (s.putAcc x v).epoch = s.epoch := by cases x <;> rfl
@[simp] theorem putAcc_inputs (s : State) (x : AccSel) (v : Acc) : (s.putAcc x v).inputs = s.inputs := by cases x <;> rfl
@[simp] theorem getAcc_putAcc (s : State) (x : AccSel) (v : Acc) : (s.putAcc x v).getAcc x = v := by cases x <;> rfl

/-! ### restoreFrame, enterPriority and loadVector -/

@[simp] theorem restoreFrame_w (hi lo : Word) (s : State) : (restoreFrame hi lo s).w = s.w := rfl
@[simp] theorem restoreFrame_intcon1 (hi lo : Word) (s : State) : (restoreFrame hi lo s).intcon1 = s.intcon1 := rfl
@[simp] theorem restoreFrame_intcon2 (hi lo : Word) (s : State) : (restoreFrame hi lo s).intcon2 = s.intcon2 := rfl
@[simp] theorem restoreFrame_ifs (hi lo : Word) (s : State) : (restoreFrame hi lo s).ifs = s.ifs := rfl
@[simp] theorem restoreFrame_iec (hi lo : Word) (s : State) : (restoreFrame hi lo s).iec = s.iec := rfl
@[simp] theorem restoreFrame_ipc (hi lo : Word) (s : State) : (restoreFrame hi lo s).ipc = s.ipc := rfl
@[simp] theorem restoreFrame_disicnt (hi lo : Word) (s : State) : (restoreFrame hi lo s).disicnt = s.disicnt := rfl
@[simp] theorem restoreFrame_splim (hi lo : Word) (s : State) : (restoreFrame hi lo s).splim = s.splim := rfl
@[simp] theorem restoreFrame_splimArmed (hi lo : Word) (s : State) : (restoreFrame hi lo s).splimArmed = s.splimArmed := rfl
@[simp] theorem restoreFrame_trapr (hi lo : Word) (s : State) : (restoreFrame hi lo s).trapr = s.trapr := rfl
@[simp] theorem restoreFrame_cf (hi lo : Word) (s : State) : (restoreFrame hi lo s).cf = s.cf := rfl
@[simp] theorem restoreFrame_accA (hi lo : Word) (s : State) : (restoreFrame hi lo s).accA = s.accA := rfl
@[simp] theorem restoreFrame_accB (hi lo : Word) (s : State) : (restoreFrame hi lo s).accB = s.accB := rfl
@[simp] theorem restoreFrame_runState (hi lo : Word) (s : State) : (restoreFrame hi lo s).runState = s.runState := rfl
@[simp] theorem restoreFrame_pinPrev (hi lo : Word) (s : State) : (restoreFrame hi lo s).pinPrev = s.pinPrev := rfl
@[simp] theorem restoreFrame_acceptAge (hi lo : Word) (s : State) : (restoreFrame hi lo s).acceptAge = s.acceptAge := rfl
@[simp] theorem restoreFrame_bufferPc (hi lo : Word) (s : State) : (restoreFrame hi lo s).bufferPc = s.bufferPc := rfl
@[simp] theorem restoreFrame_bufferSrl (hi lo : Word) (s : State) : (restoreFrame hi lo s).bufferSrl = s.bufferSrl := rfl
@[simp] theorem restoreFrame_loop (hi lo : Word) (s : State) : (restoreFrame hi lo s).loop = s.loop := rfl
@[simp] theorem restoreFrame_data (hi lo : Word) (s : State) : (restoreFrame hi lo s).data = s.data := rfl
@[simp] theorem restoreFrame_prog (hi lo : Word) (s : State) : (restoreFrame hi lo s).prog = s.prog := rfl
@[simp] theorem restoreFrame_device (hi lo : Word) (s : State) : (restoreFrame hi lo s).device = s.device := rfl
@[simp] theorem restoreFrame_draws (hi lo : Word) (s : State) : (restoreFrame hi lo s).draws = s.draws := rfl
@[simp] theorem restoreFrame_epoch (hi lo : Word) (s : State) : (restoreFrame hi lo s).epoch = s.epoch := rfl
@[simp] theorem restoreFrame_inputs (hi lo : Word) (s : State) : (restoreFrame hi lo s).inputs = s.inputs := rfl
@[simp] theorem enterPriority_w (cand : Candidate) (n : Nat) (s : State) : (enterPriority cand n s).w = s.w := by cases cand <;> rfl
@[simp] theorem enterPriority_pc (cand : Candidate) (n : Nat) (s : State) : (enterPriority cand n s).pc = s.pc := by cases cand <;> rfl
@[simp] theorem enterPriority_intcon1 (cand : Candidate) (n : Nat) (s : State) : (enterPriority cand n s).intcon1 = s.intcon1 := by cases cand <;> rfl
@[simp] theorem enterPriority_intcon2 (cand : Candidate) (n : Nat) (s : State) : (enterPriority cand n s).intcon2 = s.intcon2 := by cases cand <;> rfl
@[simp] theorem enterPriority_ifs (cand : Candidate) (n : Nat) (s : State) : (enterPriority cand n s).ifs = s.ifs := by cases cand <;> rfl
@[simp] theorem enterPriority_iec (cand : Candidate) (n : Nat) (s : State) : (enterPriority cand n s).iec = s.iec := by cases cand <;> rfl
@[simp] theorem enterPriority_ipc (cand : Candidate) (n : Nat) (s : State) : (enterPriority cand n s).ipc = s.ipc := by cases cand <;> rfl
@[simp] theorem enterPriority_disicnt (cand : Candidate) (n : Nat) (s : State) : (enterPriority cand n s).disicnt = s.disicnt := by cases cand <;> rfl
@[simp] theorem enterPriority_splim (cand : Candidate) (n : Nat) (s : State) : (enterPriority cand n s).splim = s.splim := by cases cand <;> rfl
@[simp] theorem enterPriority_splimArmed (cand : Candidate) (n : Nat) (s : State) : (enterPriority cand n s).splimArmed = s.splimArmed := by cases cand <;> rfl
@[simp] theorem enterPriority_trapr (cand : Candidate) (n : Nat) (s : State) : (enterPriority cand n s).trapr = s.trapr := by cases cand <;> rfl
@[simp] theorem enterPriority_cf (cand : Candidate) (n : Nat) (s : State) : (enterPriority cand n s).cf = s.cf := by cases cand <;> rfl
@[simp] theorem enterPriority_accA (cand : Candidate) (n : Nat) (s : State) : (enterPriority cand n s).accA = s.accA := by cases cand <;> rfl
@[simp] theorem enterPriority_accB (cand : Candidate) (n : Nat) (s : State) : (enterPriority cand n s).accB = s.accB := by cases cand <;> rfl
@[simp] theorem enterPriority_runState (cand : Candidate) (n : Nat) (s : State) : (enterPriority cand n s).runState = s.runState := by cases cand <;> rfl
@[simp] theorem enterPriority_pinPrev (cand : Candidate) (n : Nat) (s : State) : (enterPriority cand n s).pinPrev = s.pinPrev := by cases cand <;> rfl
@[simp] theorem enterPriority_acceptAge (cand : Candidate) (n : Nat) (s : State) : (enterPriority cand n s).acceptAge = s.acceptAge := by cases cand <;> rfl
@[simp] theorem enterPriority_bufferPc (cand : Candidate) (n : Nat) (s : State) : (enterPriority cand n s).bufferPc = s.bufferPc := by cases cand <;> rfl
@[simp] theorem enterPriority_bufferSrl (cand : Candidate) (n : Nat) (s : State) : (enterPriority cand n s).bufferSrl = s.bufferSrl := by cases cand <;> rfl
@[simp] theorem enterPriority_loop (cand : Candidate) (n : Nat) (s : State) : (enterPriority cand n s).loop = s.loop := by cases cand <;> rfl
@[simp] theorem enterPriority_data (cand : Candidate) (n : Nat) (s : State) : (enterPriority cand n s).data = s.data := by cases cand <;> rfl
@[simp] theorem enterPriority_prog (cand : Candidate) (n : Nat) (s : State) : (enterPriority cand n s).prog = s.prog := by cases cand <;> rfl
@[simp] theorem enterPriority_device (cand : Candidate) (n : Nat) (s : State) : (enterPriority cand n s).device = s.device := by cases cand <;> rfl
@[simp] theorem enterPriority_draws (cand : Candidate) (n : Nat) (s : State) : (enterPriority cand n s).draws = s.draws := by cases cand <;> rfl
@[simp] theorem enterPriority_epoch (cand : Candidate) (n : Nat) (s : State) : (enterPriority cand n s).epoch = s.epoch := by cases cand <;> rfl
@[simp] theorem enterPriority_inputs (cand : Candidate) (n : Nat) (s : State) : (enterPriority cand n s).inputs = s.inputs := by cases cand <;> rfl
@[simp] theorem loadVector_w (cand : Candidate) (s : State) : (loadVector cand s).w = s.w := rfl
@[simp] theorem loadVector_sr (cand : Candidate) (s : State) : (loadVector cand s).sr = s.sr := rfl
@[simp] theorem loadVector_corcon (cand : Candidate) (s : State) : (loadVector cand s).corcon = s.corcon := rfl
@[simp] theorem loadVector_intcon1 (cand : Candidate) (s : State) : (loadVector cand s).intcon1 = s.intcon1 := rfl
@[simp] theorem loadVector_intcon2 (cand : Candidate) (s : State) : (loadVector cand s).intcon2 = s.intcon2 := rfl
@[simp] theorem loadVector_ifs (cand : Candidate) (s : State) : (loadVector cand s).ifs = s.ifs := rfl
@[simp] theorem loadVector_iec (cand : Candidate) (s : State) : (loadVector cand s).iec = s.iec := rfl
@[simp] theorem loadVector_ipc (cand : Candidate) (s : State) : (loadVector cand s).ipc = s.ipc := rfl
@[simp] theorem loadVector_disicnt (cand : Candidate) (s : State) : (loadVector cand s).disicnt = s.disicnt := rfl
@[simp] theorem loadVector_splim (cand : Candidate) (s : State) : (loadVector cand s).splim = s.splim := rfl
@[simp] theorem loadVector_splimArmed (cand : Candidate) (s : State) : (loadVector cand s).splimArmed = s.splimArmed := rfl
@[simp] theorem loadVector_trapr (cand : Candidate) (s : State) : (loadVector cand s).trapr = s.trapr := rfl
@[simp] theorem loadVector_cf (cand : Candidate) (s : State) : (loadVector cand s).cf = s.cf := rfl
@[simp] theorem loadVector_accA (cand : Candidate) (s : State) : (loadVector cand s).accA = s.accA := rfl
@[simp] theorem loadVector_accB (cand : Candidate) (s : State) : (loadVector cand s).accB = s.accB := rfl
@[simp] theorem loadVector_runState (cand : Candidate) (s : State) : (loadVector cand s).runState = s.runState := rfl
@[simp] theorem loadVector_pinPrev (cand : Candidate) (s : State) : (loadVector cand s).pinPrev = s.pinPrev := rfl
@[simp] theorem loadVector_acceptAge (cand : Candidate) (s : State) : (loadVector cand s).acceptAge = s.acceptAge := rfl
@[simp] theorem loadVector_bufferPc (cand : Candidate) (s : State) : (loadVector cand s).bufferPc = s.bufferPc := rfl
@[simp] theorem loadVector_bufferSrl (cand : Candidate) (s : State) : (loadVector cand s).bufferSrl = s.bufferSrl := rfl
@[simp] theorem loadVector_loop (cand : Candidate) (s : State) : (loadVector cand s).loop = s.loop := rfl
@[simp] theorem loadVector_data (cand : Candidate) (s : State) : (loadVector cand s).data = s.data := rfl
@[simp] theorem loadVector_prog (cand : Candidate) (s : State) : (loadVector cand s).prog = s.prog := rfl
@[simp] theorem loadVector_device (cand : Candidate) (s : State) : (loadVector cand s).device = s.device := rfl
@[simp] theorem loadVector_draws (cand : Candidate) (s : State) : (loadVector cand s).draws = s.draws := rfl
@[simp] theorem loadVector_epoch (cand : Candidate) (s : State) : (loadVector cand s).epoch = s.epoch := rfl
@[simp] theorem loadVector_inputs (cand : Candidate) (s : State) : (loadVector cand s).inputs = s.inputs := rfl

/-! ### requestIrq: only the flags change -/

@[simp] theorem requestIrq_w (s : State) (i : Nat) : (s.requestIrq i).w = s.w := by unfold State.requestIrq; split <;> rfl
@[simp] theorem requestIrq_pc (s : State) (i : Nat) : (s.requestIrq i).pc = s.pc := by unfold State.requestIrq; split <;> rfl
@[simp] theorem requestIrq_sr (s : State) (i : Nat) : (s.requestIrq i).sr = s.sr := by unfold State.requestIrq; split <;> rfl
@[simp] theorem requestIrq_corcon (s : State) (i : Nat) : (s.requestIrq i).corcon = s.corcon := by unfold State.requestIrq; split <;> rfl
@[simp] theorem requestIrq_intcon1 (s : State) (i : Nat) : (s.requestIrq i).intcon1 = s.intcon1 := by unfold State.requestIrq; split <;> rfl
@[simp] theorem requestIrq_intcon2 (s : State) (i : Nat) : (s.requestIrq i).intcon2 = s.intcon2 := by unfold State.requestIrq; split <;> rfl
@[simp] theorem requestIrq_iec (s : State) (i : Nat) : (s.requestIrq i).iec = s.iec := by unfold State.requestIrq; split <;> rfl
@[simp] theorem requestIrq_ipc (s : State) (i : Nat) : (s.requestIrq i).ipc = s.ipc := by unfold State.requestIrq; split <;> rfl
@[simp] theorem requestIrq_disicnt (s : State) (i : Nat) : (s.requestIrq i).disicnt = s.disicnt := by unfold State.requestIrq; split <;> rfl
@[simp] theorem requestIrq_splim (s : State) (i : Nat) : (s.requestIrq i).splim = s.splim := by unfold State.requestIrq; split <;> rfl
@[simp] theorem requestIrq_splimArmed (s : State) (i : Nat) : (s.requestIrq i).splimArmed = s.splimArmed := by unfold State.requestIrq; split <;> rfl
@[simp] theorem requestIrq_trapr (s : State) (i : Nat) : (s.requestIrq i).trapr = s.trapr := by unfold State.requestIrq; split <;> rfl
@[simp] theorem requestIrq_cf (s : State) (i : Nat) : (s.requestIrq i).cf = s.cf := by unfold State.requestIrq; split <;> rfl
@[simp] theorem requestIrq_accA (s : State) (i : Nat) : (s.requestIrq i).accA = s.accA := by unfold State.requestIrq; split <;> rfl
@[simp] theorem requestIrq_accB (s : State) (i : Nat) : (s.requestIrq i).accB = s.accB := by unfold State.requestIrq; split <;> rfl
@[simp] theorem requestIrq_runState (s : State) (i : Nat) : (s.requestIrq i).runState = s.runState := by unfold State.requestIrq; split <;> rfl
@[simp] theorem requestIrq_pinPrev (s : State) (i : Nat) : (s.requestIrq i).pinPrev = s.pinPrev := by unfold State.requestIrq; split <;> rfl
@[simp] theorem requestIrq_acceptAge (s : State) (i : Nat) : (s.requestIrq i).acceptAge = s.acceptAge := by unfold State.requestIrq; split <;> rfl
@[simp] theorem requestIrq_bufferPc (s : State) (i : Nat) : (s.requestIrq i).bufferPc = s.bufferPc := by unfold State.requestIrq; split <;> rfl
@[simp] theorem requestIrq_bufferSrl (s : State) (i : Nat) : (s.requestIrq i).bufferSrl = s.bufferSrl := by unfold State.requestIrq; split <;> rfl
@[simp] theorem requestIrq_loop (s : State) (i : Nat) : (s.requestIrq i).loop = s.loop := by unfold State.requestIrq; split <;> rfl
@[simp] theorem requestIrq_data (s : State) (i : Nat) : (s.requestIrq i).data = s.data := by unfold State.requestIrq; split <;> rfl
@[simp] theorem requestIrq_prog (s : State) (i : Nat) : (s.requestIrq i).prog = s.prog := by unfold State.requestIrq; split <;> rfl
@[simp] theorem requestIrq_device (s : State) (i : Nat) : (s.requestIrq i).device = s.device := by unfold State.requestIrq; split <;> rfl
@[simp] theorem requestIrq_draws (s : State) (i : Nat) : (s.requestIrq i).draws = s.draws := by unfold State.requestIrq; split <;> rfl
@[simp] theorem requestIrq_epoch (s : State) (i : Nat) : (s.requestIrq i).epoch = s.epoch := by unfold State.requestIrq; split <;> rfl
@[simp] theorem requestIrq_inputs (s : State) (i : Nat) : (s.requestIrq i).inputs = s.inputs := by unfold State.requestIrq; split <;> rfl

/-! ### The step's own record -/

@[simp] theorem update_st (c : Cpu) (f : State → State) : (c.update f).st = f c.st := rfl
@[simp] theorem update_inhibit (c : Cpu) (f : State → State) : (c.update f).inhibit = c.inhibit := rfl
@[simp] theorem update_disiWritten (c : Cpu) (f : State → State) : (c.update f).disiWritten = c.disiWritten := rfl
@[simp] theorem start_st (s : State) : (start s).st = s := rfl
@[simp] theorem start_inhibit (s : State) : (start s).inhibit = false := rfl
@[simp] theorem start_disiWritten (s : State) : (start s).disiWritten = false := rfl
@[simp] theorem bind_ok {α β : Type} (x : α) (c : Cpu) (f : α → Cpu → Run β) : (Run.ok x c).bind f = f x c := rfl
@[simp] theorem bind_reset {α β : Type} (s : State) (f : α → Cpu → Run β) : (Run.reset s).bind f = .reset s := rfl
@[simp] theorem bind_stop {α β : Type} (r : Refusal) (f : α → Cpu → Run β) : (Run.stop r).bind f = .stop r := rfl
@[simp] theorem outcome_ok (c : Cpu) : (Run.ok () c).outcome = .next c.st := rfl
@[simp] theorem outcome_reset (s : State) : (Run.reset s).outcome = .next s := rfl
@[simp] theorem outcome_stop (r : Refusal) : (Run.stop r).outcome = .refused r := rfl

/-! ### stackError -/

@[simp] theorem stackError_intcon1 (s : State) (bad : Prop) [Decidable bad] :
    (s.stackError bad).intcon1 = if bad then s.intcon1 ||| 0x0004 else s.intcon1 := rfl
@[simp] theorem stackError_w (s : State) (bad : Prop) [Decidable bad] : (s.stackError bad).w = s.w := rfl
@[simp] theorem stackError_pc (s : State) (bad : Prop) [Decidable bad] : (s.stackError bad).pc = s.pc := rfl
@[simp] theorem stackError_sr (s : State) (bad : Prop) [Decidable bad] : (s.stackError bad).sr = s.sr := rfl
@[simp] theorem stackError_corcon (s : State) (bad : Prop) [Decidable bad] : (s.stackError bad).corcon = s.corcon := rfl
@[simp] theorem stackError_intcon2 (s : State) (bad : Prop) [Decidable bad] : (s.stackError bad).intcon2 = s.intcon2 := rfl
@[simp] theorem stackError_ifs (s : State) (bad : Prop) [Decidable bad] : (s.stackError bad).ifs = s.ifs := rfl
@[simp] theorem stackError_iec (s : State) (bad : Prop) [Decidable bad] : (s.stackError bad).iec = s.iec := rfl
@[simp] theorem stackError_ipc (s : State) (bad : Prop) [Decidable bad] : (s.stackError bad).ipc = s.ipc := rfl
@[simp] theorem stackError_disicnt (s : State) (bad : Prop) [Decidable bad] : (s.stackError bad).disicnt = s.disicnt := rfl
@[simp] theorem stackError_splim (s : State) (bad : Prop) [Decidable bad] : (s.stackError bad).splim = s.splim := rfl
@[simp] theorem stackError_splimArmed (s : State) (bad : Prop) [Decidable bad] : (s.stackError bad).splimArmed = s.splimArmed := rfl
@[simp] theorem stackError_trapr (s : State) (bad : Prop) [Decidable bad] : (s.stackError bad).trapr = s.trapr := rfl
@[simp] theorem stackError_cf (s : State) (bad : Prop) [Decidable bad] : (s.stackError bad).cf = s.cf := rfl
@[simp] theorem stackError_accA (s : State) (bad : Prop) [Decidable bad] : (s.stackError bad).accA = s.accA := rfl
@[simp] theorem stackError_accB (s : State) (bad : Prop) [Decidable bad] : (s.stackError bad).accB = s.accB := rfl
@[simp] theorem stackError_runState (s : State) (bad : Prop) [Decidable bad] : (s.stackError bad).runState = s.runState := rfl
@[simp] theorem stackError_pinPrev (s : State) (bad : Prop) [Decidable bad] : (s.stackError bad).pinPrev = s.pinPrev := rfl
@[simp] theorem stackError_acceptAge (s : State) (bad : Prop) [Decidable bad] : (s.stackError bad).acceptAge = s.acceptAge := rfl
@[simp] theorem stackError_bufferPc (s : State) (bad : Prop) [Decidable bad] : (s.stackError bad).bufferPc = s.bufferPc := rfl
@[simp] theorem stackError_bufferSrl (s : State) (bad : Prop) [Decidable bad] : (s.stackError bad).bufferSrl = s.bufferSrl := rfl
@[simp] theorem stackError_loop (s : State) (bad : Prop) [Decidable bad] : (s.stackError bad).loop = s.loop := rfl
@[simp] theorem stackError_data (s : State) (bad : Prop) [Decidable bad] : (s.stackError bad).data = s.data := rfl
@[simp] theorem stackError_prog (s : State) (bad : Prop) [Decidable bad] : (s.stackError bad).prog = s.prog := rfl
@[simp] theorem stackError_device (s : State) (bad : Prop) [Decidable bad] : (s.stackError bad).device = s.device := rfl
@[simp] theorem stackError_draws (s : State) (bad : Prop) [Decidable bad] : (s.stackError bad).draws = s.draws := rfl
@[simp] theorem stackError_epoch (s : State) (bad : Prop) [Decidable bad] : (s.stackError bad).epoch = s.epoch := rfl
@[simp] theorem stackError_inputs (s : State) (bad : Prop) [Decidable bad] : (s.stackError bad).inputs = s.inputs := rfl

end Sys2Proof.Machine
end

