-- ==== Sys2Proof/Laws/Memory.lean ====
section
/-! SUPPORT. The laws of memory: a read after a write, and the canonical form kept. -/

namespace Sys2Proof.Machine

@[simp] theorem Memory.read_write_same (m : Memory) (a : Nat) (b : Byte) : (m.write a b).read a = some b := by
  induction m with
  | nil => simp [Memory.write, Memory.read]
  | cons cell rest ih =>
    obtain ⟨k, c⟩ := cell
    unfold Memory.write
    split
    · simp [Memory.read]
    · split
      · simp [Memory.read]
      · rw [Memory.read, if_neg (by omega), ih]

theorem Memory.read_write_other (m : Memory) {a x : Nat} (b : Byte) (h : x ≠ a) :
    (m.write a b).read x = m.read x := by
  induction m with
  | nil => simp [Memory.write, Memory.read, h.symm]
  | cons cell rest ih =>
    obtain ⟨k, c⟩ := cell
    unfold Memory.write
    split
    · rw [Memory.read, if_neg (Ne.symm h)]
    · split
      · subst_vars; simp [Memory.read, Ne.symm h]
      · simp only [Memory.read, ih]

/-- The addresses listed after a write: the old ones and the written one. -/
theorem Memory.mem_write {m : Memory} {a : Nat} {b : Byte} {cell : Host.Cell} (h : cell ∈ m.write a b) :
    cell = (a, b) ∨ cell ∈ m := by
  induction m with
  | nil => simpa [Memory.write] using h
  | cons hd rest ih =>
    obtain ⟨k, c⟩ := hd
    unfold Memory.write at h
    split at h
    · simpa using h
    · split at h
      · rcases List.mem_cons.1 h with h | h
        · exact .inl h
        · exact .inr (List.mem_cons_of_mem _ h)
      · rcases List.mem_cons.1 h with h | h
        · exact .inr (by simp [h])
        · exact (ih h).imp id (List.mem_cons_of_mem _)

/-- A write keeps the canonical form. -/
theorem Memory.wf_write {m : Memory} (a : Nat) (b : Byte) (h : m.wf) : (m.write a b).wf := by
  induction m with
  | nil => simp [Memory.write, Memory.wf]
  | cons hd rest ih =>
    obtain ⟨k, c⟩ := hd
    simp only [Memory.wf, List.map_cons, List.pairwise_cons] at h
    obtain ⟨hlt, hrest⟩ := h
    unfold Memory.write
    split
    · rename_i hak
      simp only [Memory.wf, List.map_cons, List.pairwise_cons, List.mem_cons]
      refine ⟨?_, hlt, hrest⟩
      rintro x (rfl | hx)
      · exact hak
      · exact Nat.lt_trans hak (hlt x hx)
    · split
      · subst_vars
        simpa only [Memory.wf, List.map_cons, List.pairwise_cons] using ⟨hlt, hrest⟩
      · simp only [Memory.wf, List.map_cons, List.pairwise_cons]
        refine ⟨?_, ih hrest⟩
        intro x hx
        obtain ⟨cell, hc, rfl⟩ := List.mem_map.1 hx
        rcases Memory.mem_write hc with rfl | hc
        · show k < a
          omega
        · exact hlt _ (List.mem_map_of_mem hc)

/-- Programming a word keeps the canonical form. -/
theorem progWrite_wf {m : Memory} (a : Nat) (v : ProgWord) (h : m.wf) : (progWrite m a v).wf :=
  Memory.wf_write _ _ (Memory.wf_write _ _ (Memory.wf_write _ _ h))

/-- The memories of the state after Reset have the canonical form. -/
theorem reset_memories_wf : State.reset.data.wf ∧ State.reset.prog.wf := by decide

/-- A word store keeps the canonical form. -/
theorem storeWord_wf {s : State} (a v : Word) (h : s.data.wf) : (s.storeWord a v).data.wf :=
  Memory.wf_write _ _ (Memory.wf_write _ _ h)

/-- A word store leaves every other byte as it was. -/
theorem storeWord_dataByte_other (s : State) (a v : Word) {x : Nat} (h0 : x ≠ a.toNat) (h1 : x ≠ a.toNat + 1) :
    (s.storeWord a v).dataByte x = s.dataByte x := by
  simp [State.dataByte, Memory.read_write_other _ _ h0, Memory.read_write_other _ _ h1]

/-- The word stored is the word read (R105). -/
theorem storeWord_dataWord_same (s : State) (a v : Word) : (s.storeWord a v).dataWord a = v := by
  have h : a.toNat ≠ a.toNat + 1 := by omega
  simp only [State.dataWord, State.dataByte, storeWord_data, Memory.read_write_same, Memory.read_write_other _ _ h]
  apply BitVec.eq_of_getLsbD_eq
  intro i hi
  simp only [Option.getD_some, BitVec.getLsbD_append, BitVec.getLsbD_extractLsb']
  split
  · simp_all
  · rename_i h8
    have : 8 + (i - 8) = i := by omega
    simp [this]
    omega

/-- A word store of `v` at `a` as seen by a word read elsewhere. -/
theorem storeWord_dataWord_other (s : State) (a v : Word) {x : Word} (h0 : x.toNat ≠ a.toNat)
    (h1 : x.toNat ≠ a.toNat + 1) (h2 : x.toNat + 1 ≠ a.toNat) : (s.storeWord a v).dataWord x = s.dataWord x := by
  simp only [State.dataWord]
  rw [storeWord_dataByte_other s a v h0 h1, storeWord_dataByte_other s a v h2 (by omega)]

/-- What is programmed at an even address is what is read there. -/
theorem progRead_progWrite (s : State) (a : Nat) (v : ProgWord) :
    ({ s with prog := progWrite s.prog a v } : State).progRead a = v := by
  have h01 : progKey a 0 ≠ progKey a 1 := by simp [progKey]
  have h02 : progKey a 0 ≠ progKey a 2 := by simp [progKey]
  have h12 : progKey a 1 ≠ progKey a 2 := by simp [progKey]
  simp only [State.progRead, State.progByte, progWrite, Memory.read_write_same,
    Memory.read_write_other _ _ h12, Memory.read_write_other _ _ h02, Memory.read_write_other _ _ h01,
    Option.getD_some]
  apply BitVec.eq_of_getLsbD_eq
  intro i hi
  simp only [BitVec.getLsbD_append, BitVec.getLsbD_extractLsb']
  split
  · simp_all
  · split
    · have : 8 + (i - 8) = i := by omega
      simp_all
    · have : 16 + (i - 8 - 8) = i := by omega
      simp [this]
      omega

end Sys2Proof.Machine
end

