-- ==== Sys2Proof/Laws/Ops.lean ====
section
/-! SUPPORT. What each shared operation can do, said once: what it answers when its checks pass, and what it can answer at all. -/

namespace Sys2Proof.Machine

/-! ### Parts of a step -/

/-- Every way a part of a step can end well satisfies `P` (it goes on) or `Q` (the device was Reset). -/
def Run.Sat {α : Type} (m : Run α) (P : α → Cpu → Prop) (Q : State → Prop) : Prop :=
  match m with
  | .ok x c => P x c
  | .reset s => Q s
  | .stop _ => True

@[simp] theorem sat_ok {α : Type} (x : α) (c : Cpu) (P : α → Cpu → Prop) (Q : State → Prop) :
    (Run.ok x c).Sat P Q = P x c := rfl

@[simp] theorem sat_reset {α : Type} (s : State) (P : α → Cpu → Prop) (Q : State → Prop) :
    (Run.reset (α := α) s).Sat P Q = Q s := rfl

@[simp] theorem sat_stop {α : Type} (r : Refusal) (P : α → Cpu → Prop) (Q : State → Prop) :
    (Run.stop (α := α) r).Sat P Q = True := rfl

/-- One part after another: what the first leaves, the second starts from. -/
theorem sat_bind {α β : Type} {m : Run α} {f : α → Cpu → Run β} {P : α → Cpu → Prop} {P' : β → Cpu → Prop}
    {Q : State → Prop} (hm : m.Sat P Q) (hf : ∀ x c, P x c → (f x c).Sat P' Q) : (m.bind f).Sat P' Q := by
  cases m with
  | ok x c => exact hf x c hm
  | reset s => exact hm
  | stop r => trivial

theorem sat_mono {α : Type} {m : Run α} {P P' : α → Cpu → Prop} {Q Q' : State → Prop} (hm : m.Sat P Q)
    (hP : ∀ x c, P x c → P' x c) (hQ : ∀ s, Q s → Q' s) : m.Sat P' Q' := by
  cases m with
  | ok x c => exact hP x c hm
  | reset s => exact hQ s hm
  | stop r => trivial

/-- What a whole step answers, from what its parts satisfy. -/
theorem outcome_next {m : Run Unit} {P : Unit → Cpu → Prop} {Q : State → Prop} (hm : m.Sat P Q) {t : State}
    (h : m.outcome = .next t) : (∃ c, P () c ∧ t = c.st) ∨ Q t := by
  cases m with
  | ok x c =>
    simp only [Run.outcome, Host.Outcome.next.injEq] at h
    exact .inl ⟨c, hm, h.symm⟩
  | reset s =>
    simp only [Run.outcome, Host.Outcome.next.injEq] at h
    exact .inr (h ▸ hm)
  | stop r => simp [Run.outcome] at h

/-! ### Bits -/

theorem getLsbD_setBit {n : Nat} (v : BitVec n) (i : Nat) (b : Bool) (j : Nat) :
    (setBit v i b).getLsbD j = if i = j ∧ j < n then b else v.getLsbD j := by
  unfold setBit
  by_cases hj : j < n
  · by_cases hij : i = j
    · cases b <;> simp [hij, hj]
    · cases b <;> simp [hij, Ne.symm hij, hj]
  · have h0 : v.getLsbD j = false := BitVec.getLsbD_of_ge _ _ (Nat.le_of_not_lt hj)
    cases b
    · simp [hj, h0, BitVec.getLsbD_twoPow]
    · simp [hj, h0, BitVec.getLsbD_twoPow]
      omega

/-- A bit not in `rw` or `rc` keeps its state under a software write; the others follow R6. -/
theorem getLsbD_accessWrite (rw rc mask old new : Word) (i : Nat) :
    (accessWrite rw rc mask old new).getLsbD i =
      if mask.getLsbD i then
        if rw.getLsbD i then new.getLsbD i
        else if rc.getLsbD i then old.getLsbD i && new.getLsbD i
        else old.getLsbD i
      else old.getLsbD i := by
  unfold accessWrite
  by_cases hi : i < 16
  · simp only [BitVec.getLsbD_or, BitVec.getLsbD_and, BitVec.getLsbD_not, hi, decide_true, Bool.true_and]
    cases mask.getLsbD i <;> cases rw.getLsbD i <;> cases rc.getLsbD i <;> cases old.getLsbD i <;>
      cases new.getLsbD i <;> rfl
  · simp [BitVec.getLsbD_of_ge _ i (Nat.le_of_not_lt hi)]

/-! ### Traps -/

/-- A raise that does not conflict sets the flag (R212). -/
theorem raise_of_not_conflicts {t : Trap} {c : Cpu} (h : c.st.conflicts t = false) :
    raise t c = .ok () (c.update fun s => s.flagTrap t) := by simp [raise, h]

/-- A raise that conflicts resets the device (R212, R228). -/
theorem raise_of_conflicts {t : Trap} {c : Cpu} (h : c.st.conflicts t = true) :
    raise t c = .reset (deviceReset .trapConflict c.st) := by simp [raise, h]

/-- A soft trap never conflicts (R228), so `softTrap` is its raise. -/
theorem raise_soft {t : Trap} (c : Cpu) (h : t.hard = false) : raise t c = .ok () (softTrap t c) := by
  simp [raise, State.conflicts, h, softTrap]

/-- All that an address error can do (R212, R223). -/
theorem addressError_sat (c : Cpu) {P : Unit → Cpu → Prop} {Q : State → Prop}
    (hok : c.st.conflicts .addrErr = false →
      P () (({ c with inhibit := true } : Cpu).update fun s => s.flagTrap .addrErr))
    (hreset : c.st.conflicts .addrErr = true → Q (deviceReset .trapConflict c.st)) :
    (addressError c).Sat P Q := by
  unfold addressError raise
  cases h : c.st.conflicts .addrErr <;> simp [h, hok, hreset]

/-! ### Registers -/

@[simp] theorem getW_putW_same (s : State) (r : WReg) (v : Word) : (s.putW r v).getW r = v := by
  simp only [State.getW, putW_w, Vector.get, Vector.set]
  exact Array.getElem_set_self (by simp [r.isLt])

theorem getW_putW_other (s : State) {r x : WReg} (v : Word) (h : x ≠ r) : (s.putW r v).getW x = s.getW x := by
  have : r.toNat ≠ x.toNat := fun e => h (BitVec.eq_of_toNat_eq e.symm)
  simp only [State.getW, putW_w, Vector.get, Vector.set]
  exact Array.getElem_set_ne _ _ this

/-- A write of a register other than W15, or of W15 at or above 0x0800, is a plain write (R214). -/
theorem writeW_plain {r : WReg} {v : Word} (c : Cpu) (h : r = 15 → ¬ v < 0x0800) :
    writeW r v c = c.update fun s => s.putW r v := by
  unfold writeW
  rw [if_neg (fun ⟨a, b⟩ => h a b)]

/-- A write of W15 below 0x0800 raises the stack error (R214). -/
theorem writeW_below {v : Word} (c : Cpu) (h : v < 0x0800) :
    writeW 15 v c = softTrap .stkErr (c.update fun s => s.putW 15 v) := by
  unfold writeW
  rw [if_pos ⟨rfl, h⟩]

/-- All that a write of a working register can do: the register, and perhaps STKERR. -/
theorem writeW_cases (r : WReg) (v : Word) (c : Cpu) :
    writeW r v c = (c.update fun s => s.putW r v) ∨
      writeW r v c = softTrap .stkErr (c.update fun s => s.putW r v) := by
  unfold writeW
  split
  · exact .inr rfl
  · exact .inl rfl

/-- An address sum that stays in data space raises nothing (R216). -/
theorem pointerAdd_inside {r : WReg} {d : Int} {c : Cpu} (h0 : 0 ≤ ((c.st.getW r).toNat : Int) + d)
    (h1 : ((c.st.getW r).toNat : Int) + d ≤ 0xFFFF) :
    pointerAdd r d c = (BitVec.ofInt 16 (((c.st.getW r).toNat : Int) + d), c) := by
  unfold pointerAdd
  dsimp only
  rw [if_neg (by omega)]

/-- All that a sum can do besides: raise the stack error. -/
theorem pointerAdd_cases (r : WReg) (d : Int) (c : Cpu) :
    (pointerAdd r d c).2 = c ∨ (pointerAdd r d c).2 = softTrap .stkErr c := by
  unfold pointerAdd
  dsimp only
  split
  · exact .inr rfl
  · exact .inl rfl

/-- A software read of a register changes nothing but the counter of free values. -/
theorem readReg_cases (r : Reg) (c : Cpu) :
    (readReg r c).2 = c ∨ (readReg r c).2 = c.update fun s => { s with draws := s.draws + 1 } := by
  cases r <;> first | exact .inl rfl | exact .inr rfl

/-! ### Data accesses -/

theorem stackLimit_cases (b : Bool) (ea : Word) (c : Cpu) :
    stackLimit b ea c = c ∨ stackLimit b ea c = softTrap .stkErr c := by
  unfold stackLimit
  split
  · exact .inr rfl
  · exact .inl rfl

/-- Within the limit, or where the limit does not apply, nothing is raised (R215). -/
theorem stackLimit_inside {b : Bool} {ea : Word} {c : Cpu}
    (h : b = true → c.st.splimArmed = true → ea.toNat ≤ c.st.splim.toNat) : stackLimit b ea c = c := by
  unfold stackLimit
  rw [if_neg]
  simp only [Bool.and_eq_true, decide_eq_true_eq, not_and, BitVec.lt_def]
  intro hb
  have := h hb.1 hb.2
  omega

theorem not_lt_0800 {ea : Word} (h : 0x0800 ≤ ea.toNat) : ¬ ea < 0x0800 := by
  rw [BitVec.lt_def]
  show ¬ ea.toNat < 0x0800
  omega

/-- A word read of implemented data memory whose checks pass (R104, R105, R215, R221). -/
theorem readWord_ram {ea : Word} {b : Bool} {c : Cpu} (heven : ea.getLsbD 0 = false) (hlo : 0x0800 ≤ ea.toNat)
    (himp : Device.dataImplemented c.st.device ea.toNat = true)
    (hlim : b = true → c.st.splimArmed = true → ea.toNat ≤ c.st.splim.toNat) :
    readWord ea b c = .ok (c.st.dataWord ea) c := by
  unfold readWord
  simp only [stackLimit_inside hlim, heven, himp, Bool.false_eq_true, if_false, if_true]
  rw [if_neg (not_lt_0800 hlo)]

/-- A word read of a listed register (R102). -/
theorem readWord_reg {ea : Word} {b : Bool} {c : Cpu} {r : Reg} (heven : ea.getLsbD 0 = false) (hlo : ea.toNat < 0x0800)
    (hreg : regAt c.st.device ea.toNat = some r) (hlim : b = true → c.st.splimArmed = true → ea.toNat ≤ c.st.splim.toNat) :
    readWord ea b c = .ok (readReg r c).1 (readReg r c).2 := by
  have : ea < 0x0800 := by rw [BitVec.lt_def]; exact hlo
  unfold readWord
  simp only [stackLimit_inside hlim, heven, hreg, Bool.false_eq_true, if_false]
  rw [if_pos this]

/-- A word write of implemented data memory whose checks pass. -/
theorem writeWord_ram {ea v : Word} {b : Bool} {c : Cpu} (heven : ea.getLsbD 0 = false) (hlo : 0x0800 ≤ ea.toNat)
    (himp : Device.dataImplemented c.st.device ea.toNat = true)
    (hlim : b = true → c.st.splimArmed = true → ea.toNat ≤ c.st.splim.toNat) (hin : c.inhibit = false) :
    writeWord ea v b c = .ok () (c.update fun s => s.storeWord ea v) := by
  unfold writeWord
  simp only [stackLimit_inside hlim, heven, himp, hin, Bool.false_eq_true, if_false, if_true]
  rw [if_neg (not_lt_0800 hlo)]

/-- A word write of a listed register. -/
theorem writeWord_reg {ea v : Word} {b : Bool} {c : Cpu} {r : Reg} (heven : ea.getLsbD 0 = false)
    (hlo : ea.toNat < 0x0800) (hreg : regAt c.st.device ea.toNat = some r)
    (hlim : b = true → c.st.splimArmed = true → ea.toNat ≤ c.st.splim.toNat) (hin : c.inhibit = false) :
    writeWord ea v b c = writeReg r true 0xFFFF v c := by
  have : ea < 0x0800 := by rw [BitVec.lt_def]; exact hlo
  unfold writeWord
  simp only [stackLimit_inside hlim, heven, hreg, hin, Bool.false_eq_true, if_false]
  rw [if_pos this]

/-! ### The stack -/

/-- A push with room (R7, R108): the word stored at W15, W15 two higher, nothing else. -/
theorem push16_room {v : Word} {c : Cpu} (hin : c.inhibit = false) (heven : (c.st.getW 15).getLsbD 0 = false)
    (hlo : 0x0800 ≤ (c.st.getW 15).toNat) (hhi : (c.st.getW 15).toNat + 2 < 0x10000)
    (himp : Device.dataImplemented c.st.device (c.st.getW 15).toNat = true)
    (hlim : c.st.splimArmed = true → (c.st.getW 15).toNat ≤ c.st.splim.toNat) :
    push16 v c = .ok () (c.update fun s => (s.storeWord (s.getW 15) v).putW 15 (s.getW 15 + 2)) := by
  have hW : (c.st.storeWord (c.st.getW 15) v).getW 15 = c.st.getW 15 := rfl
  have hsum : BitVec.ofInt 16 (((c.st.getW 15).toNat : Int) + 2) = c.st.getW 15 + 2 := by
    apply BitVec.eq_of_toNat_eq
    simp [BitVec.toNat_ofInt, BitVec.toNat_add]
    omega
  have hle : ¬ c.st.getW 15 + 2 < 0x0800 := by
    apply not_lt_0800
    have : (c.st.getW 15 + 2).toNat = (c.st.getW 15).toNat + 2 := by
      rw [BitVec.toNat_add]; exact Nat.mod_eq_of_lt (by simpa using hhi)
    omega
  unfold push16
  rw [writeWord_ram heven hlo himp (fun _ h => hlim h) hin]
  simp only [bind_ok]
  rw [pointerAdd_inside (by simp only [update_st, hW]; omega) (by simp only [update_st, hW]; omega)]
  simp only [update_st, hW, hsum]
  rw [writeW_plain _ (fun _ => hle)]
  rfl

/-- A pop with a word to pop (R7, R108). -/
theorem pop16_holds {c : Cpu} (heven : (c.st.getW 15).getLsbD 0 = false) (hlo : 0x0802 ≤ (c.st.getW 15).toNat)
    (himp : Device.dataImplemented c.st.device ((c.st.getW 15).toNat - 2) = true)
    (hlim : c.st.splimArmed = true → (c.st.getW 15).toNat ≤ c.st.splim.toNat + 2) :
    pop16 c = .ok (c.st.dataWord (c.st.getW 15 - 2)) (c.update fun s => s.putW 15 (s.getW 15 - 2)) := by
  have hn : (c.st.getW 15 - 2).toNat = (c.st.getW 15).toNat - 2 := by
    have := (c.st.getW 15).isLt
    rw [BitVec.toNat_sub]
    show (2 ^ 16 - 2 + (c.st.getW 15).toNat) % 2 ^ 16 = _
    omega
  have hsum : BitVec.ofInt 16 (((c.st.getW 15).toNat : Int) + -2) = c.st.getW 15 - 2 := by
    apply BitVec.eq_of_toNat_eq
    rw [hn, BitVec.toNat_ofInt]; have := (c.st.getW 15).isLt; omega
  have hle : ¬ c.st.getW 15 - 2 < 0x0800 := not_lt_0800 (by omega)
  have hbit : (c.st.getW 15 - 2).getLsbD 0 = false := by
    have h2 : (c.st.getW 15).toNat.testBit 0 = false := heven
    show (c.st.getW 15 - 2).toNat.testBit 0 = false
    rw [hn]; simp at h2 ⊢; omega
  unfold pop16
  rw [pointerAdd_inside (by omega) (by have := (c.st.getW 15).isLt; omega)]
  simp only [hsum]
  rw [writeW_plain _ (fun _ => hle)]
  rw [readWord_ram hbit (by omega) (by rw [hn]; exact himp)
    (fun _ h => by have := hlim h; simp only [update_st, putW_splim]; omega)]
  rfl

/-! ### Accumulators -/

/-- The flags left open after an operation on an accumulator are SA or SB, OAB and SAB: every other bit of SR stays (log 12). -/
theorem drawDspFlags_sr (x : AccSel) (c : Cpu) {b : Nat} (h : b ≠ satBit x) (h11 : b ≠ 11) (h10 : b ≠ 10) :
    (drawDspFlags x c).st.sr.getLsbD b = c.st.sr.getLsbD b := by
  show (freeDspFlags c.st.sr x c.st.draws).getLsbD b = _
  simp only [freeDspFlags, getLsbD_setBit, Ne.symm h, Ne.symm h11, Ne.symm h10, false_and, if_false]

/-- Three free values are drawn for them, and nothing but SR changes. -/
theorem drawDspFlags_eq (x : AccSel) (c : Cpu) :
    drawDspFlags x c = c.update fun s => { s with sr := (drawDspFlags x c).st.sr, draws := s.draws + 3 } := rfl

/-! ### The PC and the end of an instruction -/

/-- Inside program space the PC moves by the sum (R21). -/
theorem movePc_inside {d : Int} {c : Cpu} (h0 : 0 ≤ (c.st.pc.toNat : Int) + d) (h1 : (c.st.pc.toNat : Int) + d < 2 ^ 23) :
    movePc d c = c.update fun s => { s with pc := BitVec.ofInt 23 ((c.st.pc.toNat : Int) + d) } := by
  unfold movePc
  rw [if_pos ⟨h0, h1⟩]

/-- All that moving the PC can do: the PC, and perhaps a free value drawn. -/
theorem movePc_cases (d : Int) (c : Cpu) :
    (∃ p, movePc d c = c.update fun s => { s with pc := p }) ∨
      movePc d c = c.update fun s => { s with pc := Config.freePc s.draws ++ 0#1, draws := s.draws + 1 } := by
  unfold movePc
  dsimp only
  split
  · exact .inl ⟨_, rfl⟩
  · exact .inr rfl

/-- The end of an instruction that has not written DISICNT counts its cycles down, and changes nothing else (R151). -/
theorem retire_counts {i : Instr} {s : State} {c : Cpu} (h : c.disiWritten = false) :
    (retire i s c).st = { c.st with disicnt := countDown (cycles i s) c.st.disicnt } := by
  unfold retire spend
  rw [h]
  rfl

/-- The end of an instruction that has written DISICNT changes nothing (R151, R293). -/
theorem retire_written {i : Instr} {s : State} {c : Cpu} (h : c.disiWritten = true) : retire i s c = c := by
  unfold retire spend
  rw [h]
  rfl

/-- All that the end of an instruction can do: DISICNT. -/
theorem retire_st (i : Instr) (s : State) (c : Cpu) : ∃ n, (retire i s c).st = { c.st with disicnt := n } := by
  cases h : c.disiWritten
  · exact ⟨_, retire_counts h⟩
  · exact ⟨c.st.disicnt, by rw [retire_written h]⟩

/-- DISICNT stops at 0 (R151). -/
theorem countDown_toNat (n : Nat) (cnt : BitVec 14) : (countDown n cnt).toNat = cnt.toNat - n := by
  unfold countDown
  split
  · subst_vars; simp
  · rw [BitVec.toNat_ofNat, Nat.mod_eq_of_lt]
    have := cnt.isLt
    omega

end Sys2Proof.Machine
end

