-- ==== Sys2Proof/Laws/Boundary.lean ====
section
/-! SUPPORT. What the acceptance decision, the REPEAT loop and a step can do, said once. -/

namespace Sys2Proof.Machine

/-- An entry is of the candidate, while the machine runs, in the state as it is but for the draw of the choice. -/
theorem decision_enter {s u : State} {cand : Candidate} (h : s.decision = .enter cand u) :
    s.candidate = some cand ∧ s.runState = .running ∧ (u = s ∨ u = { s with draws := s.draws + 1 }) := by
  unfold State.decision at h
  split at h
  · split at h
    · cases h
    · split at h
      · split at h
        · cases h
        · cases h
          exact ⟨‹_›, ‹_›, .inr rfl⟩
      · cases h
        exact ⟨‹_›, ‹_›, .inl rfl⟩
  all_goals split at h <;> cases h

/-- An instruction runs in the state as it is but for `accept_age` and the draw of the choice. -/
theorem decision_run {s u : State} (h : s.decision = .run u) :
    s.runState = .running ∧ ((s.candidate = none ∧ u = { s with acceptAge := 0 }) ∨
      ∃ cand, s.candidate = some cand ∧ s.acceptAge < Device.skidMax s.device cand ∧
        u = { s with acceptAge := s.acceptAge + 1, draws := s.draws + 1 }) := by
  unfold State.decision at h
  split at h
  · split at h
    · cases h
      exact ⟨‹_›, .inl ⟨‹_›, rfl⟩⟩
    · split at h
      · split at h
        · cases h
          exact ⟨‹_›, .inr ⟨_, ‹_›, ‹_›, rfl⟩⟩
        · cases h
      · cases h
  all_goals split at h <;> cases h

/-- What the REPEAT loop makes of the state an instruction leaves: that state, the loop ended, or the PC back at the target. -/
theorem continueLoop_cases (s t : State) :
    continueLoop s t = t ∨ continueLoop s t = { t with loop := none } ∨
      ∃ l, s.loopLive = some l ∧ continueLoop s t = { t with
        loop := some { l with left := l.left - 1, started := true }
        sr := setBit t.sr 4 (decide (l.left ≠ 1))
        pc := l.target } := by
  unfold continueLoop
  split
  · exact .inl rfl
  · split
    · split
      · exact .inr (.inl rfl)
      · exact .inr (.inr ⟨_, ‹_›, rfl⟩)
    · exact .inl rfl

/-- Everything a step can be: an event, or the machine's own step with the head of the schedule passed. -/
theorem step_cases (s : State) :
    (∃ e rest, s.inputs = some e :: rest ∧ step s = .next (({ s with inputs := rest } : State).deliver e)) ∨
      (s.inputs.head?.join = none ∧ step s = machineStep { s with inputs := s.inputs.tail }) := by
  unfold step
  split
  · exact .inl ⟨_, _, ‹_›, rfl⟩
  · rename_i h
    exact .inr ⟨by rw [h]; rfl, by rw [h]; rfl⟩
  · rename_i h
    refine .inr ⟨by rw [h]; rfl, ?_⟩
    congr 1
    cases s
    simp_all

end Sys2Proof.Machine
end

