-- ==== Sys2Proof/Laws/Exceptions.lean ====
section
/-! SUPPORT. What exception entry and the two pops of a return do when the stack's checks pass. -/

namespace Sys2Proof.Machine

theorem even_add_two {v : Word} (h : v.getLsbD 0 = false) : (v + 2).getLsbD 0 = false := by
  have h1 : v.toNat.testBit 0 = false := h
  show (v + 2).toNat.testBit 0 = false
  rw [BitVec.toNat_add]
  show ((v.toNat + 2) % 2 ^ 16).testBit 0 = false
  simp at h1 ⊢
  omega

theorem even_sub_two {v : Word} (h : v.getLsbD 0 = false) : (v - 2).getLsbD 0 = false := by
  have h1 : v.toNat.testBit 0 = false := h
  show (v - 2).toNat.testBit 0 = false
  rw [BitVec.toNat_sub]
  show ((2 ^ 16 - 2 + v.toNat) % 2 ^ 16).testBit 0 = false
  simp at h1 ⊢
  omega

theorem toNat_add_two {v : Word} (h : v.toNat + 2 < 0x10000) : (v + 2).toNat = v.toNat + 2 := by
  rw [BitVec.toNat_add]
  exact Nat.mod_eq_of_lt (by simpa using h)

theorem toNat_sub_two {v : Word} (h : 2 ≤ v.toNat) : (v - 2).toNat = v.toNat - 2 := by
  have := v.isLt
  rw [BitVec.toNat_sub]
  show (2 ^ 16 - 2 + v.toNat) % 2 ^ 16 = _
  omega

/-- The state with the frame of R238 stored and W15 past it. -/
def frameStored (s : State) : State :=
  ((((s.storeWord (s.getW 15) (s.pc.extractLsb' 0 16)).putW 15 (s.getW 15 + 2)).storeWord (s.getW 15 + 2)
    (frameHigh s.srl s.ipl3 s.pc)).putW 15 (s.getW 15 + 2 + 2))

/-- Entry with room for the frame (R237): the frame, the temporary buffer, the priority, the vector, four cycles. -/
theorem takeException_room (cand : Candidate) {s : State} (h : s.stackRoom 2) :
    takeException cand s = .next { loadVector cand (enterPriority cand (s.candidateLevel cand)
      (frameStored { s with bufferPc := s.pc, bufferSrl := s.srl })) with
        acceptAge := 0, disicnt := countDown 4 s.disicnt } := by
  obtain ⟨heven, hlo, hhi, himp, hlim⟩ := h
  have himp0 := himp 0 (by omega)
  have himp1 := himp 1 (by omega)
  unfold takeException
  rw [push16_room (c := start { s with bufferPc := s.pc, bufferSrl := s.srl }) rfl heven hlo
    (show (s.getW 15).toNat + 2 < 0x10000 by omega) himp0
    (fun ha => by have := hlim ha; show (s.getW 15).toNat ≤ s.splim.toNat; omega)]
  simp only [bind_ok]
  have hS : (s.getW 15 + 2).toNat = (s.getW 15).toNat + 2 := toNat_add_two (by omega)
  have hW : (((start { s with bufferPc := s.pc, bufferSrl := s.srl }).update fun s =>
      (s.storeWord (s.getW 15) (State.pc s |>.extractLsb' 0 16)).putW 15 (s.getW 15 + 2)).st.getW 15)
      = s.getW 15 + 2 := by
    simp only [update_st]; rw [getW_putW_same]; rfl
  rw [push16_room rfl]
  · simp only [bind_ok, outcome_ok, update_st, getW_putW_same, start_st]
    cases cand <;> rfl
  · show ((State.putW _ 15 _).getW 15).getLsbD 0 = false
    rw [getW_putW_same]; exact even_add_two heven
  · show 0x0800 ≤ ((State.putW _ 15 _).getW 15).toNat
    rw [getW_putW_same]; show 0x0800 ≤ (s.getW 15 + 2).toNat; omega
  · show ((State.putW _ 15 _).getW 15).toNat + 2 < 0x10000
    rw [getW_putW_same]; show (s.getW 15 + 2).toNat + 2 < 0x10000; omega
  · show Device.dataImplemented s.device ((State.putW _ 15 _).getW 15).toNat = true
    rw [getW_putW_same]; show Device.dataImplemented s.device (s.getW 15 + 2).toNat = true
    rw [hS]; exact himp1
  · intro ha
    show ((State.putW _ 15 _).getW 15).toNat ≤ s.splim.toNat
    rw [getW_putW_same]; show (s.getW 15 + 2).toNat ≤ s.splim.toNat
    have := hlim ha; omega

/-- Two pops from a stack that holds a frame (R152, R174). -/
theorem popFrame_holds {c : Cpu} (f : (hi lo : Word) → Cpu → Cpu) (h : c.st.stackHolds 2) :
    popFrame c f = .ok () (f (c.st.dataWord (c.st.getW 15 - 2)) (c.st.dataWord (c.st.getW 15 - 2 - 2))
      ((c.update fun s => s.putW 15 (s.getW 15 - 2)).update fun s => s.putW 15 (s.getW 15 - 2))) := by
  obtain ⟨heven, hlo, himp, hlim⟩ := h
  have himp0 := himp 0 (by omega)
  have himp1 := himp 1 (by omega)
  have hS : (c.st.getW 15 - 2).toNat = (c.st.getW 15).toNat - 2 := toNat_sub_two (by omega)
  have hW : (c.update fun s => s.putW 15 (s.getW 15 - 2)).st.getW 15 = c.st.getW 15 - 2 := getW_putW_same _ _ _
  unfold popFrame
  rw [pop16_holds heven (by omega) himp0 hlim]
  simp only [bind_ok]
  rw [pop16_holds (by rw [hW]; exact even_sub_two heven) (by rw [hW]; omega)
    (by rw [hW, hS]; exact himp1) (fun ha => by
      rw [hW]; have := hlim ha; show (c.st.getW 15 - 2).toNat ≤ c.st.splim.toNat + 2; omega)]
  simp only [bind_ok, hW]
  rfl

end Sys2Proof.Machine
end

