-- ==== Sys2Proof/Tests/Slice0.lean ====
section
/-! SUPPORT. Tests: the checks of WellFormed, words written out from R133, vectors of `95_test_vectors.md` (V and S numbers; where
none is named the expected values are worked out by hand from the rule), and a witness for the hypotheses of each statement. -/

namespace Sys2Proof.Tests

open Sys2Proof Sys2Proof.Machine

/-! ### Helpers -/

/-- Whether the outcome is a next state that satisfies `p`. -/
def onNext (o : Host.Outcome State Fault Refusal) (p : State → Bool) : Bool :=
  match o with
  | .next t => p t
  | .fault _ | .refused _ => false

/-- The state after Reset with W15 and some data memory. -/
def mem (sp : Word) (cells : Memory) : State := { State.reset with w := State.reset.w.set 15 sp, data := cells }

/-- The state after Reset with the word `w` programmed at 0x000100 and the PC there. -/
def at100 (w : Nat) : State := ({ State.reset with pc := 0x100 } : State).withFetchWord 24 w

/-- Whether the outcome is this refusal. -/
def refusedAs (r : Refusal) (o : Host.Outcome State Fault Refusal) : Bool :=
  match o with
  | .refused r' => r' = r
  | .next _ | .fault _ => false

/-- A device whose program memory ends at 0x000FFF and whose data memory is 0x0800 to 0x2FFF, with 0x2000 and above Y space. -/
def small : Device := { Device.default with progRanges := [(0, 0xFFF)], dataRanges := [(0x800, 0x2FFF)], ySpace := [(0x2000, 0x2FFF)] }

/-! ### WellFormed refuses -/

theorem test_second_word_ill_formed : (Instr.gotoWord2 5).wellFormed = false ∧ (Instr.goto 5).wellFormed = true := by decide

theorem test_unused_mode_ill_formed : (Instr.btscW 0 .unused6 1).wellFormed = false ∧
    (Instr.btssW 0 .unused7 1).wellFormed = false ∧ (Instr.movdLoad 1 .unused6 2).wellFormed = false ∧
    (Instr.movdStore .unused7 2 1).wellFormed = false := by decide

theorem test_odd_pair_ill_formed : (Instr.movdLoad 1 .direct 3).wellFormed = false ∧
    (Instr.movdStore .direct 3 1).wellFormed = false ∧ (Instr.movdLoad 1 .direct 2).wellFormed = true := by decide

/-! ### Decoding: words written out from the patterns of R133 -/

theorem test_decode_control : decode 0x00ABCD 0 = .ok .nop ∧ decode 0x37FFFE 0 = .ok (.bra 0xFFFE) ∧
    decode 0x041234 0x000056 = .ok (.goto 0x2B091A) ∧ decode 0x060000 0 = .ok .returnSub ∧
    decode 0x064000 0 = .ok .retfie ∧ decode 0xFE0000 0 = .ok .reset ∧ decode 0xFE4000 0 = .ok (.pwrsav .sleep) ∧
    decode 0xFE4001 0 = .ok (.pwrsav .idle) := by decide

/-- R138: the second word of GOTO fetched alone is a NOP; R135: a word outside the table is refused. -/
theorem test_decode_not_an_instruction : decode 0x000056 0 = .ok .nop ∧ decode 0x041234 0x010056 = .error .gotoSecondWord ∧
    decode 0xFFFFFF 0 = .error .unknownOpcode ∧ decode 0x060001 0 = .error .fixedBits := by decide

theorem test_decode_literals : decode 0x090011 0 = .ok (.repeatLit 17) ∧ decode 0x098003 0 = .ok (.repeatReg 3) ∧
    decode 0xFC3FFF 0 = .ok (.disi 0x3FFF) ∧ decode 0xC8006F 0 = .ok (.sftacLit .a 0x2F) ∧
    decode 0xC88005 0 = .ok (.sftacReg .b 5) := by decide

theorem test_decode_moves : decode 0xF80042 0 = .ok (.push 0x21) ∧ decode 0xF90042 0 = .ok (.pop 0x21) ∧
    decode 0xBE0236 0 = .ok (.movdLoad 2 .postInc 6) ∧ decode 0xBE9F04 0 = .ok (.movdStore .postInc 0xE 2) := by decide

theorem test_decode_bit_tests : decode 0xAF6085 0 = .ok (.btscF 0xB 0x042) ∧ decode 0xA73014 0 = .ok (.btscW 3 .indirect 4) ∧
    decode 0xAE4080 0 = .ok (.btssF 2 0x040) ∧ decode 0xA6F00F 0 = .ok (.btssW 15 .direct 15) := by decide

theorem test_decode_divides : decode 0xD808C2 0 = .ok (.divS 1 1 .double 2) ∧ decode 0xD88002 0 = .ok (.divU 0 0 .single 2) ∧
    decode 0xD90802 0 = .ok (.divF 1 2) := by decide

/-! ### Vectors -/

/-- R183. -/
theorem test_nop : onNext (step (at100 0x000000)) (fun t => t.pc = 0x102 ∧ t.w = State.reset.w) = true := by decide

/-- V1. -/
theorem test_disi : onNext (step (at100 0xFC0005)) (fun t => t.disicnt = 5 ∧ t.pc = 0x102 ∧
    (readReg .intcon2 (start t)).1 = 0x4000) = true := by decide

/-- V20. -/
theorem test_retfie : onNext (exec .retfie { mem 0x0844 [(0x840, 0x46), (0x841, 0x02), (0x842, 0x00), (0x843, 0x61)] with sr := 0xE0 })
    (fun t => t.getW 15 = 0x840 ∧ t.sr = 0x61 ∧ t.ipl3 = false ∧ t.pc = 0x246) = true := by decide

/-- V21. -/
theorem test_retfie_into_a_trap : onNext
    (exec .retfie { mem 0x0808 [(0x804, 0x34), (0x805, 0x12), (0x806, 0x85), (0x807, 0x80)] with sr := 0xC0, corcon := 0x28 })
    (fun t => t.sr = 0x80 ∧ t.corcon = 0x28 ∧ t.cpuIpl = 12 ∧ t.pc = 0x051234) = true := by decide

/-- V33: the entry of LVD. -/
theorem test_interrupt_entry : onNext (takeException (.irq 42) { mem 0x0900 [] with
      pc := 0x012346, sr := 0x40, ipc := State.reset.ipc.set 10 0x4744, prog := progWrite [] 0x68 0x001000 })
    (fun t => t.data = [(0x900, 0x46), (0x901, 0x23), (0x902, 0x01), (0x903, 0x40)] ∧ t.getW 15 = 0x904 ∧ t.sr = 0xE0 ∧
      t.pc = 0x1000) = true := by decide

/-- V34: the entry of the stack error inside a level-4 ISR; V35 with NSTDIS. -/
theorem test_trap_entry : onNext (takeException (.trap .stkErr) { mem 0x0800 [] with
      pc := 0x104, sr := 0x80, intcon1 := 0x8004, prog := progWrite [] 0x0A 0x000320 })
    (fun t => t.data = [(0x800, 0x04), (0x801, 0x01), (0x802, 0x00), (0x803, 0x80)] ∧ t.corcon = 0x28 ∧ t.sr = 0x80 ∧
      t.cpuIpl = 12 ∧ t.pc = 0x320) = true := by decide

/-- S4: the level beats natural order; V40, V41, V45. -/
theorem test_arbitration :
    let s : State := { State.reset with ifs := #v[0x0009, 0, 0], iec := #v[0x0009, 0, 0] }
    s.winner = some 0 ∧ ({ s with ipc := s.ipc.set 0 0x5444 } : State).winner = some 3 ∧
      ({ s with corcon := 0x28 } : State).winner = none ∧
      ({ s with ifs := #v[1, 0, 0x0400], iec := #v[1, 0, 0x0400], ipc := (s.ipc.set 0 0x4441).set 10 0x4744 } : State).winner = some 42 := by decide

/-- V67: a push over the limit; V69: a push that wraps W15. -/
theorem test_push_checks :
    onNext (exec (.push 0x21) { mem 0x0812 [] with splim := 0x0810, splimArmed := true, sr := 0x0041 })
      (fun t => t.data = [(0x812, 0x41), (0x813, 0x00)] ∧ t.getW 15 = 0x814 ∧ t.trapFlag .stkErr) = true ∧
    onNext (exec (.push 0x21) (mem 0xFFFE [])) (fun t => t.getW 15 = 0 ∧ t.trapFlag .stkErr) = true := by decide

/-- R181's example, and V66: a push at the limit. -/
theorem test_push : onNext (exec (.push 0x21) { mem 0x0820 [] with splim := 0x0820, splimArmed := true, sr := 0x0041 })
    (fun t => t.data = [(0x820, 0x41), (0x821, 0x00)] ∧ t.getW 15 = 0x822 ∧ !t.trapFlag .stkErr) = true := by decide

/-- R182's example; V138 under NSTDIS. -/
theorem test_pop_sr :
    onNext (exec (.pop 0x21) { mem 0x0822 [(0x820, 0x41), (0x821, 0x00)] with sr := 0x00E1 })
      (fun t => t.sr = 0x0041 ∧ t.getW 15 = 0x820) = true ∧
    onNext (exec (.pop 0x21) { mem 0x0822 [(0x820, 0x01), (0x821, 0x00)] with sr := 0x00E0, intcon1 := 0x8000 })
      (fun t => t.sr = 0x00E1) = true := by decide

/-- V130, V132 to V135: what software can write. -/
theorem test_pop_registers :
    let s := mem 0x0802 [(0x800, 0xFF), (0x801, 0xFF)]
    onNext (exec (.pop 0x40) s) (fun t => t.intcon1 = 0x8700) = true ∧
      onNext (exec (.pop 0x41) s) (fun t => t.intcon2 = 0x801F) = true ∧
      onNext (exec (.pop 0x44) s) (fun t => t.ifs.get 2 = 0x1FFF) = true ∧
      onNext (exec (.pop 0x4A) s) (fun t => t.ipc.get 0 = 0x7777) = true ∧
      onNext (exec (.pop 0x55) s) (fun t => t.ipc.get 11 = 0x0007) = true := by decide

/-- V140; V24 and V60 for the pop below 0x0800. -/
theorem test_unlisted_register : refusedAs .unlistedRegister (exec (.push 0x45) State.reset) = true ∧
    refusedAs .unlistedRegister (exec .returnSub State.reset) = true := by decide

/-- V82, V87: beyond 16 the accumulator stays; a left shift out of bit 39 under COVTE. -/
theorem test_sftac :
    onNext (exec (.sftacLit .a 17) { State.reset with accA := 0x1234 }) (fun t => t.accA = 0x1234 ∧ t.intcon1 = 0x10) = true ∧
    onNext (exec (.sftacLit .b 0x3F) { State.reset with accB := 0x7FFFFFFFFF, intcon1 := 0x0100 })
      (fun t => t.intcon1 = 0x110 ∧ t.accA = 0) = true ∧
    onNext (exec (.sftacReg .a 3) { State.reset with accA := 0xAB00, w := State.reset.w.set 3 0xFFC8 })
      (fun t => t.intcon1 = 0) = true := by decide

/-- R175: a positive count shifts right, whatever fills; V83, V85: OA after a carry out of bit 31. -/
theorem test_shift_and_overflow : shiftAcc 0xAB00 0 8 = 0xAB ∧ shiftAcc 0xAB00 0xFFFFFFFFFF 8 = 0xFF000000AB ∧
    shiftAcc 0xAB 0 (-8) = 0xAB00 ∧ shiftCarries 32 0x40000000 (-1) = true ∧ shiftCarries 32 0x40000000 1 = false ∧
    (accumulatorEvents .a true false (start State.reset)).st.sr = 0x8000 ∧
    (accumulatorEvents .a true false (start { State.reset with corcon := 0xA0 })).st.sr = 0 := by decide

/-- V80; without the zero no trap. -/
theorem test_divide : onNext (exec (.divS 0 0 .single 2) State.reset) (fun t => t.intcon1 = 0x10 ∧ t.pc = 2) = true ∧
    onNext (exec (.divF 0 2) { State.reset with w := State.reset.w.set 2 7 }) (fun t => t.intcon1 = 0 ∧ t.getW 2 = 7) = true ∧
    onNext (exec (.divU 0 0 .single 15) State.reset) (fun t => t.intcon1 = 0) = true := by decide

/-- R176: REPEAT of 1; the second boundary goes back, the third goes on. -/
theorem test_repeat : onNext (exec (.repeatLit 1) State.reset) (fun t => t.ra ∧ t.loop = some ⟨2, 1, false⟩) = true ∧
    onNext (step { at100 0 with sr := 0x10, loop := some ⟨0x100, 1, false⟩ })
      (fun t => t.pc = 0x100 ∧ !t.ra ∧ t.loop = some ⟨0x100, 0, true⟩) = true ∧
    onNext (exec (.repeatReg 1) State.reset) (fun t => !t.ra) = true := by decide

/-- R173's example, R172's, and V106. -/
theorem test_branches : onNext (step ({ at100 0x37FFFF with pc := 0x100 })) (fun t => t.pc = 0x100) = true ∧
    onNext (exec (.goto 0x80) State.reset) (fun t => t.pc = 0x100 ∧ t.intcon1 = 0) = true ∧
    onNext (exec (.goto 0x7800) { State.reset with device := small }) (fun t => t.pc = 0xF000 ∧ t.intcon1 = 8) = true := by decide

/-- R174's example. -/
theorem test_return : onNext (exec .returnSub (mem 0x0804 [(0x800, 0xFE), (0x801, 0xFF), (0x802, 0x7F), (0x803, 0x00)]))
    (fun t => t.getW 15 = 0x800 ∧ t.pc = 0x7FFFFE) = true := by decide

/-- R170's example: RESET inside a handler; R171: PWRSAV. -/
theorem test_reset_and_power :
    onNext (exec .reset { mem 0x0900 [] with sr := 0x80, corcon := 0x28 }) (fun t => t.pc = 0 ∧ t.cpuIpl = 0 ∧ t.getW 15 = 0x800) = true ∧
    onNext (exec (.pwrsav .idle) State.reset) (fun t => t.runState = .idle ∧ t.pc = 2) = true := by decide

/-- R178: a load through a pointer that moves on by 4, and a store, low word first. -/
theorem test_movd :
    onNext (exec (.movdLoad 2 .postInc 6) { mem 0x0800 [(0x900, 1), (0x901, 2), (0x902, 3), (0x903, 4)] with
      w := State.reset.w.set 6 0x900 }) (fun t => t.getW 4 = 0x0201 ∧ t.getW 5 = 0x0403 ∧ t.getW 6 = 0x904) = true ∧
    onNext (exec (.movdStore .preDec 6 1) { State.reset with w := ((State.reset.w.set 6 0x904).set 2 0x0201).set 3 0x0403 })
      (fun t => t.data = [(0x900, 1), (0x901, 2), (0x902, 3), (0x903, 4)] ∧ t.getW 6 = 0x900) = true := by decide

/-- R179, R180: BTSC IFS0, #3 and BTSS INTCON1, #2 (the rules' examples), the latter over a GOTO; DO with a
literal and a register count (log 16). -/
theorem test_bit_tests_of_file :
    onNext (exec (.btscF 3 0x042) { State.reset with prog := progWrite [] 2 0 }) (fun t => t.pc = 4) = true ∧
    onNext (exec (.btssF 2 0x040) { State.reset with intcon1 := 4, prog := progWrite [] 2 0x040100 }) (fun t => t.pc = 6) = true ∧
    isTwoWord 0x080005 = true ∧ isTwoWord 0x088003 = true ∧ isTwoWord 0x088013 = false := by decide

/-- R179, R180: the register forms, not skipping. -/
theorem test_bit_tests_of_operand :
    onNext (exec (.btssW 0 .direct 1) State.reset) (fun t => t.pc = 2) = true ∧
    onNext (exec (.btscW 0 .indirect 1) { mem 0x0800 [(0x900, 1), (0x901, 0)] with w := State.reset.w.set 1 0x900 })
      (fun t => t.pc = 2) = true := by decide

/-- V101; V109: the conflict Reset. -/
theorem test_address_errors :
    let s : State := { State.reset with w := State.reset.w.set 6 0x901 }
    onNext (exec (.movdStore .indirect 6 1) s) (fun t => t.data = [] ∧ t.intcon1 = 8 ∧ t.pc = 2) = true ∧
      onNext (exec (.movdStore .indirect 6 1) { s with corcon := 0x28, sr := 0xA0 }) (fun t => t.trapr ∧ t.pc = 0) = true := by decide

/-- V150, V153: waking; V155, V159: pin edges; V111: a higher trap is no conflict. -/
theorem test_events :
    let s : State := { State.reset with runState := .sleep, ifs := #v[8, 0, 0], iec := #v[8, 0, 0] }
    onNext (step s) (fun t => t.runState = .running) = true ∧
      onNext (step { s with iec := #v[0, 0, 0] }) (fun t => t.runState = .sleep) = true ∧
      onNext (step { State.reset with inputs := [some (.pin 0 true)] }) (fun t => t.ifs.get 0 = 1) = true ∧
      onNext (step { State.reset with intcon2 := 8, pinPrev := 8, inputs := [some (.pin 3 false)] }) (fun t => t.ifs.get 2 = 0x10) = true ∧
      onNext (step { State.reset with corcon := 0x28, sr := 0xA0, inputs := [some (.oscFail .clockLoss)] })
        (fun t => t.intcon1 = 2 ∧ t.cf) = true := by decide

/-! ### Witnesses: states and operands that meet the hypotheses of the statements -/

/-- NOP at 0x000100 under a REPEAT loop with `n` iterations left. -/
def looped (n : Word) : State := { at100 0 with loop := some ⟨0x100, n, false⟩, sr := if n = 0 then 0 else 0x10 }

/-- The small device with stack pointer `sp` and W6 at `p`. -/
def onSmall (sp p : Word) : State := { mem sp [] with device := small, w := (State.reset.w.set 6 p).set 15 sp }

theorem witness_DecodeReadsBackEncode : (Instr.goto 0x12345).isFirstWord = true ∧
    ((Instr.goto 0x12345).words = 2 → encodeWord2 (.goto 0x12345) = encodeWord2 (.goto 0x12345)) ∧
    Instr.nop.isFirstWord = true ∧ (Instr.nop.words = 2 → (5 : ProgWord) = encodeWord2 .nop) := by decide

theorem witness_DecodeRefusesWordsOutsideTable :
    (∀ i : Instr, i.isFirstWord = true → (0xFFFFFF : ProgWord) &&& (opcodeRow i).1 ≠ (opcodeRow i).2) ∧
      decode 0x060000 0 = .ok .returnSub := by
  refine ⟨fun i _ => ?_, by decide⟩
  cases i <;> simp only [opcodeRow] <;> decide

theorem witness_DecodedInstructionDeterminesWords : decode 0x041234 0x000056 = .ok (.goto 0x2B091A) ∧
    Instr.goto 0x2B091A ≠ .nop ∧ decode 0xFC0000 0xFFFFFF = .ok (.disi 0) := by decide

theorem witness_step_statements : (at100 0).Inv ∧ (∃ t, step (at100 0) = .next t) := by
  refine ⟨⟨by decide, ⟨by decide, ?_⟩, by decide⟩, _, rfl⟩
  intro l h
  cases (show none = some l from h)

/-- An instruction, a hard trap's entry, and a RETFIE whose frame holds IPL3. -/
theorem witness_OnlyTrapEntryAndRetfieSetIpl3 : Instr.nop ≠ .retfie ∧ onNext (exec .nop State.reset) (fun t => !t.ipl3) = true ∧
    onNext (step { at100 0 with intcon1 := 0x0008 }) (fun t => t.ipl3) = true ∧
    onNext (step { at100 0x064000 with w := State.reset.w.set 15 0x804, data := [(0x800, 0), (0x801, 1), (0x802, 0x80), (0x803, 0)] })
      (fun t => t.ipl3) = true ∧ (at100 0).ipl3 = false := by decide

/-- A request; the entry of a hard trap at the first and the last stack pointer of data memory, and on an odd one; a Reset that disarms the
limit. -/
theorem witness_EventsAndEntriesKeepEnables :
    let s : State := { at100 0 with intcon1 := 0x0008 }
    let armed : State := { at100 0xFE0000 with splimArmed := true }
    InputEvent.peripheral 3 ≠ .externalReset ∧ State.reset.conflicts .oscFail = false ∧ s.quiet ∧
      s.onward.decision = .enter (.trap .addrErr) s.onward ∧ 0x0800 ≤ (s.getW 15).toNat ∧ (s.getW 15).toNat + 2 < 0x10000 ∧
      0xFFFD + 2 < 0x10000 ∧ (mem 0xFFFD []).conflicts .addrErr = false ∧ onNext (step s) (fun _ => true) = true ∧
      onNext (step armed) (fun t => !t.splimArmed) = true := by decide

/-- The decision whose choice is free takes one of two states, each with the draw made: the next choice is another bit (R209, R235). -/
theorem test_skid_draws :
    let s : State := { State.reset with ifs := #v[8, 0, 0], iec := #v[8, 0, 0] }
    s.decision = if Config.skid 0 then .run { s with acceptAge := 1, draws := 1 } else .enter (.irq 3) { s with draws := 1 } := by
  intro s
  unfold State.decision
  rw [show s.candidate = some (.irq 3) by decide]
  rfl

theorem witness_StepRunsDecodedInstruction : (at100 0xFC0005).quiet ∧ (at100 0xFC0005).runState = .running ∧
    (at100 0xFC0005).onward.candidate = none ∧
    Device.progImplemented (at100 0xFC0005).device (at100 0xFC0005).pc.toNat = true ∧
    (at100 0xFC0005).progListed (at100 0xFC0005).pc.toNat = true ∧
    decode ((at100 0xFC0005).progRead (at100 0xFC0005).pc.toNat) ((at100 0xFC0005).progRead ((at100 0xFC0005).pc.toNat + 2)) =
      .ok (.disi 5) ∧ ({ (at100 0xFC0005).onward with acceptAge := 0 } : State).loopLive = none ∧
    (at100 0xFC0005).onward.decision = .run { (at100 0xFC0005).onward with acceptAge := 0 } := by decide

/-- No candidate; an interrupt before and after its skid; a soft trap; a hard trap; a step due that enters, one that runs. -/
theorem witness_BoundaryDecisionFollowsCandidate :
    let s : State := { State.reset with ifs := #v[8, 0, 0], iec := #v[8, 0, 0] }
    State.reset.candidate = none ∧ s.candidate = some (.irq 3) ∧ s.acceptAge < Device.skidMax s.device (.irq 3) ∧
      Device.skidMax s.device (.irq 3) ≤ ({ s with acceptAge := 1 } : State).acceptAge ∧
      ({ s with intcon1 := 4 } : State).candidate = some (.trap .stkErr) ∧ Device.skidMax s.device (.trap .stkErr) = 2 ∧
      ({ s with intcon1 := 8 } : State).candidate = some (.trap .addrErr) ∧ s.quiet ∧
      ({ s with intcon1 := 8 } : State).onward.decision = .enter (.trap .addrErr) ({ s with intcon1 := 8 } : State).onward ∧
      ({ s with acceptAge := 1 } : State).onward.decision = .enter (.irq 3) ({ s with acceptAge := 1 } : State).onward ∧
      State.reset.onward.decision = .run { State.reset.onward with acceptAge := 0 } := by decide

theorem witness_arbitration_statements :
    let s : State := { State.reset with ifs := #v[1, 0, 0], iec := #v[1, 0, 0], ipc := State.reset.ipc.set 0 7, sr := 0xE0 }
    let u : State := { s with sr := 0, disicnt := 1, intcon1 := 0x14 }
    u.winner = some 0 ∧ (1 : BitVec 14) ≠ 0 ∧ u.eligible 0 = true ∧ u.irqLevel 0 = 7 ∧ u.pendingTrap = some .stkErr ∧
      s.pendingTrap = none ∧ 7 ≤ s.cpuIpl ∧ u.ipl3 = false ∧ u.trapFlag .mathErr = true ∧ (0 < 45 ∧ 44 < 45) := by decide

theorem witness_entry_statements : State.reset.stackRoom 2 ∧ (mem 0xFFFA []).stackRoom 2 ∧ State.reset.pc.getLsbD 0 = false := by
  decide

/-- At level 4, and the level-7 source that wins over it afterwards. -/
theorem witness_SameLevelWaitsForTheHandler :
    let s : State := { State.reset with
      ifs := #v[9, 0, 0], iec := #v[9, 0, 0], ipc := State.reset.ipc.set 0 0x7444, prog := progWrite [] 0x14 0x200 }
    s.stackRoom 2 ∧ onNext (takeException (.irq 0) s) (fun t => t.winner = some 3) = true := by decide

theorem witness_OnlyHigherTrapsNestInTraps :
    let s : State := { State.reset with intcon1 := 0x14, prog := progWrite [] 0x0C 0x200 }
    s.stackRoom 2 ∧ onNext (takeException (.trap .mathErr) s) (fun t => t.candidate = some (.trap .stkErr)) = true := by decide

/-- R246, R223, R214, R216: odd stack pointers at either end of data space: the address error, the stack error where W15 comes to lie below
0x0800, nothing stored, the priority of the interrupt. -/
theorem test_odd_entry_at_the_ends :
    let entry (sp : Word) (flags : Word) : Bool := onNext (takeException (.irq 0) (mem sp [])) fun t =>
      t.intcon1 = flags && t.getW 15 = sp + 4 && t.cpuIpl = 4 && t.data = []
    entry 0x0801 8 = true ∧ entry 0x07FD 8 = false ∧ entry 0x07FD 12 = true ∧ entry 0xFFF9 8 = true ∧ entry 0xFFFD 12 = true ∧
      entry 0xFFFF 12 = true ∧ entry 0x0041 12 = true := by decide

theorem witness_EntryOnOddStackRaisesAddressError :
    let s := mem 0x0801 []
    (s.getW 15).getLsbD 0 = true ∧ ((mem 0xFFFF []).getW 15).getLsbD 0 = true ∧ ((mem 1 []).getW 15).getLsbD 0 = true ∧
      s.conflicts .addrErr = false ∧ ({ s with intcon1 := 2 } : State).conflicts .addrErr = true := by decide

/-- The first and the last address a BRA reaches from 0; the last of program space for GOTO. -/
theorem witness_BranchesReachTheirTarget :
    0 ≤ (State.reset.pc.toNat : Int) + 2 + 2 * (0xFFFF#16).toInt ∧ (State.reset.pc.toNat : Int) + 2 + 2 * (0x7FFF#16).toInt < 2 ^ 23 ∧
    Device.progImplemented State.reset.device ((State.reset.pc.toNat : Int) + 2 + 2 * (0x7FFF#16).toInt).toNat = true ∧
    Device.progImplemented State.reset.device (2 * (0x3FFFFF#22).toNat) = true := by decide

theorem witness_UnimplementedTargetsRaiseAddressError :
    let s : State := { onSmall 0x800 0 with pc := 0x1000 }
    0 ≤ (s.pc.toNat : Int) + 2 + 2 * (0x10#16).toInt ∧ (s.pc.toNat : Int) + 2 + 2 * (0x10#16).toInt < 2 ^ 23 ∧
      Device.progImplemented s.device ((s.pc.toNat : Int) + 2 + 2 * (0x10#16).toInt).toNat = false ∧
      Device.progImplemented s.device (2 * (0x800#22).toNat) = false ∧
      s.conflicts .addrErr = false ∧ ({ s with corcon := 0x28, sr := 0xA0 } : State).conflicts .addrErr = true ∧
      s.quiet ∧ s.runState = .running ∧ s.onward.candidate = none ∧
      Device.progImplemented s.device s.pc.toNat = false ∧
      ({ s with corcon := 0x28, sr := 0xA0 } : State).onward.candidate = none := by decide

theorem witness_pops : (mem 0x0804 []).stackHolds 2 ∧ (mem 0xFFFE []).stackHolds 2 ∧ (mem 0x0802 []).stackHolds 1 := by decide

theorem witness_repeat_statements :
    ((looped 0).loop = some ⟨(looped 0).pc, 0, false⟩ ∧ (looped 0).ra = decide ((0 : Word) ≠ 0)) ∧
    (looped 2).loop = some ⟨(looped 2).pc, 2, false⟩ ∧ (looped 2).ra = decide ((2 : Word) ≠ 0) ∧
    (looped 2).inputs = [] ∧ (looped 2).runState = .running ∧ (∀ τ, (looped 2).trapFlag τ = false) ∧
    (looped 2).pc.toNat + 2 < 2 ^ 23 ∧ Device.progImplemented (looped 2).device (looped 2).pc.toNat = true ∧
    (looped 2).progListed (looped 2).pc.toNat = true ∧
    decode ((looped 2).progRead (looped 2).pc.toNat) ((looped 2).progRead ((looped 2).pc.toNat + 2)) = .ok .nop ∧
    State.reset.loopLive = none ∧ ({ looped 2 with pc := 0x200 } : State).loopLive = none ∧
    ({ looped 2 with sr := 0 } : State).loopLive = none := by
  refine ⟨by decide, by decide, by decide, by decide, by decide, fun τ => ?_, by decide, by decide, by decide, by decide, by decide⟩
  cases τ <;> decide

theorem witness_irqEnable_of_looped : ∀ i, (looped 2).irqEnable i = false := by
  intro i
  have h : ∀ j : Nat, (looped 2).iec[j]?.getD (0 : Word) = 0 := by
    intro j
    match j with
    | 0 | 1 | 2 => rfl
    | n + 3 => simp
  unfold State.irqEnable
  rw [h]
  simp

/-- The shift counts at the edges of the two statements. -/
theorem witness_sftac_counts : 16 < (0x11#6).toInt ∧ (0x2F#6).toInt < -16 ∧ -16 ≤ (0x30#6).toInt ∧ (0x30#6).toInt ≤ 16 ∧
    -16 ≤ (0x10#6).toInt ∧ (0x10#6).toInt ≤ 16 ∧ (0x10#6).toInt = 16 := by decide

/-- PUSH of SR, of a word of data memory, and of RCON. -/
theorem witness_push_statements : State.reset.stackRoom 1 ∧ State.reset.readableAs (0x21#15 ++ 0#1) 0 0 ∧
    State.reset.readableAs (0x480#15 ++ 0#1) (State.reset.dataWord 0x900) 0 ∧
    State.reset.readableAs (0x3A0#15 ++ 0#1) (readReg .rcon (start State.reset)).1 1 :=
  ⟨by decide, .inr ⟨by decide, by decide, .sr, by decide, rfl, rfl⟩, .inl ⟨by decide, by decide, by decide, rfl, rfl⟩,
    .inr ⟨by decide, by decide, .rcon, by decide, rfl, rfl⟩⟩

/-- V70: an entry whose second push is above an armed SPLIM completes at level 4, and the stack error trap is then pending. -/
theorem test_v70 :
    let s : State := { mem 0x0802 [] with splim := 0x0802, splimArmed := true, pc := 0x123456 }
    onNext (takeException (.irq 3) s) (fun t => t.intcon1 = 4 ∧ t.cpuIpl = 4 ∧ t.getW 15 = 0x0806 ∧ t.dataWord 0x0802 = 0x3456 ∧
      t.dataWord 0x0804 = 0x0012 ∧ t.pendingTrap = some .stkErr) = true := by decide

/-- A push over the limit and one that wraps; a pop at 0 and of a register; a return of which only the second pop is below 0x0800, from a
register and from none; a pop that meets no register; an entry at the end of data space. -/
theorem witness_StackChecksFlagAndStillAccess :
    let s : State := { mem 0x0812 [] with splim := 0x0810, splimArmed := true }
    let at0 : State := { (mem 0 []).putW 15 (0 - 2) with intcon1 := 4 }
    let below : State := { (mem 0x82 []).putW 15 (0x82 - 2) with intcon1 := 4 }
    let frame : State := (mem 0x0802 []).putW 15 0x0800
    ((s.getW 15).getLsbD 0 = false ∧ 0x0800 ≤ (s.getW 15).toNat ∧ s.pastLimit 15 (s.getW 15) ∧ (mem 0xFFFE []).getW 15 = 0xFFFE) ∧
    (at0.readableAs (0 - 2) (at0.dataWord 0xFFFE) 0 ∧ below.readableAs (0x82 - 2) 4 0 ∧ 0x0800 ≤ (0x400#15 ++ 0#1 : Word).toNat ∧
      frame.readableAs 0x0800 (frame.dataWord 0x0800) 0 ∧ regAt State.reset.device 0x07FE = none ∧
      (at0.putW 15 (0 - 4)).readableAs (0 - 4) (at0.dataWord 0xFFFC) 0) ∧
    ((0x0800 : Word) - 2 = 0x07FE ∧ (mem 0xFFFC []).getW 15 = 0xFFFC ∧ 0xFFFC + 2 < 0x10000) :=
  ⟨by decide, ⟨.inl ⟨by decide, by decide, by decide, rfl, rfl⟩, .inr ⟨by decide, by decide, .intcon1, by decide, rfl, rfl⟩,
    by decide, .inl ⟨by decide, by decide, by decide, rfl, rfl⟩, by decide, .inl ⟨by decide, by decide, by decide, rfl, rfl⟩⟩, by decide⟩

/-- An odd stack pointer inside data memory and at either end of data space; a word to push; no conflict, and one. -/
theorem witness_OddStackPointerRaisesAddressError :
    ((mem 0x0801 []).getW 15).getLsbD 0 = true ∧ ((mem 1 []).getW 15).getLsbD 0 = true ∧ ((mem 0xFFFF []).getW 15).getLsbD 0 = true ∧
      (mem 0x0801 []).readableAs (0x21#15 ++ 0#1) 0 0 ∧ (mem 0x0801 []).conflicts .addrErr = false ∧
      ({ mem 0x0801 [] with intcon1 := 2 } : State).conflicts .addrErr = true :=
  ⟨by decide, by decide, by decide, .inr ⟨by decide, by decide, .sr, by decide, rfl, rfl⟩, by decide, by decide⟩

theorem witness_PopStoresToMemory : (onSmall 0x802 0).stackHolds 1 ∧ 0x0800 ≤ (0x400#15 ++ 0#1 : Word).toNat ∧
    Device.dataImplemented small (0x400#15 ++ 0#1 : Word).toNat = true ∧
    Device.dataImplemented small (0x7FFF#15 ++ 0#1 : Word).toNat = false := by decide

/-- Each register that a POP statement names, at its address. -/
theorem witness_pop_registers : (mem 0x0802 []).stackHolds 1 ∧ (0x3A1#15 ++ 0#1 : Word).toNat < 0x0800 ∧
    ([0x21, 0x22, 0x29, 0x10, 0x0F, 0x06, 0x3A0, 0x3A1, 0x41, 0x44, 0x46].map fun f : BitVec 15 =>
      regAt Device.default (f ++ 0#1 : Word).toNat) =
      [some .sr, some .corcon, some .disicnt, some .splim, some (.w 15), some (.w 6), some .rcon, some .osccon, some .intcon2,
        some (.ifs 2), some (.iec 0)] ∧
    (mem 0x0802 []).disicnt = 0 ∧ ({ mem 0x0802 [] with disicnt := 5 } : State).disicnt ≠ 0 := by decide

/-- A POP on a device on which a written 1 requests a trap: of both hard traps, of the address error at level 13 and with the oscillator
failure standing, of none. -/
theorem witness_PopWritesIntcon1 :
    let s (lo : Byte) : State := { mem 0x0802 [(0x800, lo), (0x801, 0)] with device := { Device.default with trapFlagSwSet := true } }
    (s 0x0A).stackHolds 1 ∧ ((s 0x0A).dataWord ((s 0x0A).getW 15 - 2) = 0x000A ∧ (s 0x0A).cpuIpl < 13 ∧
      (s 0x0A).trapFlag .oscFail = false ∧ (s 0x0A).trapFlag .addrErr = false) ∧
    ({ s 0x08 with corcon := 0x28, sr := 0xA0 } : State).cpuIpl = 13 ∧ ({ s 0x0A with intcon1 := 2 } : State).trapFlag .oscFail = true ∧
    (s 0x14).dataWord ((s 0x14).getW 15 - 2) = 0x0014 := by decide

theorem witness_PopWritesPriorities :
    let s : State := { mem 0x0802 [] with iec := #v[8, 0, 0] }
    s.stackHolds 1 ∧ s.cpuIpl < 7 ∧ s.irqPresent 3 = true ∧ s.irqEnable 3 = true ∧ s.disicnt = 0 ∧
      ¬ ({ s with sr := 0xE0 } : State).cpuIpl < 7 := by decide

/-- MOV.D to data memory through W6, over its end, and through W15 at its limit; into IFS0 and IFS1, an IPC, and before a hole. -/
theorem witness_movd_statements :
    let s := onSmall 0x0804 0x2FFE
    let u : State := { mem 0x0808 [] with splim := 0x0806, splimArmed := true }
    let ea (p : Word) : Word := (pointer .indirect 6 4 (start (onSmall 0x0804 p))).1
    AddrMode.postInc.isIndirect = true ∧ (6 : WReg) ≠ 15 ∧ (2 = 2 ∨ 2 = 4) ∧
      ((ea 0x2FFE).getLsbD 0 = false ∧ 0x0800 ≤ (ea 0x2FFE).toNat ∧ (ea 0x2FFE).toNat + 3 < 0x10000 ∧
        Device.dataImplemented s.device 0x2FFE = true ∧ Device.dataImplemented s.device 0x3000 = false) ∧
      ¬ u.pastLimit 15 ((pointer .preDec 15 4 (start u)).1 + 2) ∧ u.pastLimit 15 ((pointer .indirect 15 4 (start u)).1 + 2) ∧
      (ea 0xFFFE = 0xFFFE ∧ regAt s.device 0 = some (.w 0)) ∧
      ((ea 0x84).toNat + 2 < 0x0800 ∧ regAt s.device (ea 0x84).toNat = some (.ifs 0) ∧ regAt s.device 0x0086 = some (.ifs 1)) ∧
      (regAt s.device (ea 0x88).toNat = some (.ifs 2) ∧ regAt s.device 0x008A = none) ∧
      (regAt s.device (ea 0x94).toNat = some (.ipc 0) ∧ s.cpuIpl < 7 ∧ s.irqPresent 0 = true ∧ s.disicnt = 0 ∧
        ({ s with iec := #v[1, 0, 0] } : State).irqEnable 0 = true) ∧
      AddrMode.unused6.listed = false ∧ AddrMode.unused7.listed = false := by decide

/-- MOV.D from data memory through W6, and from IFS0 and IFS1. -/
theorem witness_MovdLoadsThePair :
    let s := onSmall 0x0804 0x0900
    let u := (pointer .postInc 6 4 (start s)).2.st
    let f := onSmall 0x0804 0x0084
    (u.readableAs (pointer .postInc 6 4 (start s)).1 (s.dataWord 0x0900) 0 ∧
      ({ u with draws := u.draws + 0 } : State).readableAs ((pointer .postInc 6 4 (start s)).1 + 2) (s.dataWord 0x0902) 0 ∧
      (pointer .postInc 6 4 (start s)).1 + 2 = 0x0902) ∧
    f.readableAs (pointer .indirect 6 4 (start f)).1 0 0 ∧
      ({ f with draws := f.draws + 0 } : State).readableAs ((pointer .indirect 6 4 (start f)).1 + 2) 0 0 :=
  ⟨⟨.inl ⟨by decide, by decide, by decide, rfl, rfl⟩, .inl ⟨by decide, by decide, by decide, rfl, rfl⟩, by decide⟩,
    .inr ⟨by decide, by decide, .ifs 0, by decide, rfl, rfl⟩, .inr ⟨by decide, by decide, .ifs 1, by decide, rfl, rfl⟩⟩

theorem witness_BitTestOfFileSkips : State.reset.readableAs (0#3 ++ 0x42#12 ++ 0#1) 0 0 ∧
    State.reset.readableAs (0#3 ++ 0xFFF#12 ++ 0#1) (State.reset.dataWord 0x1FFE) 0 :=
  ⟨.inr ⟨by decide, by decide, .ifs 0, by decide, rfl, rfl⟩, .inl ⟨by decide, by decide, by decide, rfl, rfl⟩⟩

theorem witness_BitTestOfOperandSkips :
    let s := onSmall 0x0800 0x0084
    let u := (pointer .postInc 6 2 (start s)).2.st
    AddrMode.postInc.isIndirect = true ∧ u.readableAs (pointer .postInc 6 2 (start s)).1 0 0 :=
  ⟨rfl, .inr ⟨by decide, by decide, .ifs 0, by decide, rfl, rfl⟩⟩

/-- Odd and unimplemented operands, through W6 and through W15; the first or the second word of a double word alone; a file address. -/
theorem witness_address_error_statements :
    let s := onSmall 0x0801 0x0901
    let far := onSmall 0x0800 0x3000
    AddrMode.indirect.isIndirect = true ∧ (pointer .indirect 6 4 (start s)).1.getLsbD 0 = true ∧
      s.conflicts .addrErr = false ∧ ({ s with intcon1 := 2 } : State).conflicts .addrErr = true ∧
      (pointer .indirect 15 4 (start s)).1.getLsbD 0 = true ∧
      ((onSmall 0x3002 0).getW 15).getLsbD 0 = false ∧ Device.dataImplemented small ((0x3002 : Word) - 2).toNat = false ∧
      Device.dataImplemented small ((0x3002 : Word) - 4).toNat = true ∧
      (far.stackRoom 1 ∧ 0x0800 ≤ (0x1800#15 ++ 0#1 : Word).toNat ∧
        Device.dataImplemented s.device (0x1800#15 ++ 0#1 : Word).toNat = false) ∧
      (0x0800 ≤ (pointer .indirect 6 2 (start far)).1.toNat ∧ (pointer .indirect 6 4 (start far)).1.toNat + 3 < 0x10000 ∧
        Device.dataImplemented far.device (pointer .indirect 6 2 (start far)).1.toNat = false) ∧
      Device.dataImplemented small 0x2FFE = true ∧
      (0x0800 ≤ (0#3 ++ 0x800#12 ++ 0#1 : Word).toNat ∧
        Device.dataImplemented { small with dataRanges := [(0x800, 0xFFF)] } (0#3 ++ 0x800#12 ++ 0#1 : Word).toNat = false) := by decide

/-- Where the spec lists no register: operands of PUSH, of a bit test and of a pointer. -/
theorem witness_RegisterMapFollowsTheTable : (0x45#15 ++ 0#1 : Word).toNat < 0x0800 ∧
    regAt State.reset.device (0x45#15 ++ 0#1 : Word).toNat = none ∧ (mem 0x0802 []).stackHolds 1 ∧
    ((mem 0x07FE []).getW 15).getLsbD 0 = false ∧ regAt State.reset.device ((mem 0x07FE []).getW 15).toNat = none ∧
    (0#3 ++ 0x3FF#12 ++ 0#1 : Word).toNat < 0x0800 ∧ regAt State.reset.device (0#3 ++ 0x3FF#12 ++ 0#1 : Word).toNat = none ∧
    (pointer .indirect 6 4 (start (onSmall 0x0800 0x92))).1 = 0x92 ∧ (0x92#16).getLsbD 0 = false ∧ regAt small 0x92 = none := by
  decide

theorem witness_DisiLoadsAndCyclesCountDown : (∀ n, Instr.nop ≠ .disi n) ∧
    onNext (exec .nop { State.reset with disicnt := 5 }) (fun _ => true) = true := ⟨fun _ => by simp, by decide⟩

/-- A conflict with the level that is being processed; a pending higher trap; none. -/
theorem witness_HardTrapConflictResets :
    let s : State := { State.reset with corcon := 0x28, sr := 0xA0 }
    (13 ≤ Trap.addrErr.level ∧ Trap.addrErr.level ≤ s.cpuIpl) ∧
      (Trap.addrErr.level < Trap.oscFail.level ∧ ({ State.reset with intcon1 := 2 } : State).trapFlag .oscFail = true) ∧
      ¬ 13 ≤ Trap.stkErr.level ∧ (start s).st = s := by decide

theorem witness_event_statements : State.reset.irqPresent 44 = true ∧
    ({ State.reset with device := { Device.default with irqImplemented := 0 } } : State).irqPresent 44 = false := by decide

theorem witness_EnabledSourceWakesTheMachine :
    let s : State := { State.reset with runState := .sleep, ifs := #v[8, 0, 0], iec := #v[8, 0, 0] }
    let u : State := { s with device := { Device.default with irqImplemented := 0 } }
    s.quiet ∧ s.runState ≠ .running ∧
      (∃ i, s.irqPresent i = true ∧ s.irqFlag i = true ∧ s.irqEnable i = true ∧ 1 ≤ s.irqLevel i) ∧
      ∀ i, u.irqPresent i = true → u.irqFlag i = true → u.irqEnable i = true → u.irqLevel i = 0 := by
  refine ⟨by decide, by decide, ⟨3, by decide⟩, fun i h => ?_⟩
  simp [State.irqPresent] at h

theorem witness_tables_and_operations : (61 < 62) ∧
    ({ State.reset with ifs := #v[0, 0, 0x1000], iec := #v[0, 0, 0x1000] } : State).candidate = some (.irq 44) ∧
    State.reset.intcon2.getLsbD 15 = false ∧
    ({ State.reset with intcon2 := 0x8000 } : State).intcon2.getLsbD 15 = true ∧
    (0x42#16).getLsbD 0 = false ∧ (0x42#16).toNat < 0x0800 ∧ regAt State.reset.device (0x42#16).toNat = some .sr ∧
    inRanges small.ySpace 0x2000 = true ∧ inRanges small.ySpace 0x1FFE = false ∧
    Device.dataImplemented small 0x2000 = true ∧ Device.dataImplemented small 0x1FFE = true ∧
    (onSmall 0x800 0).conflicts .addrErr = false ∧ State.reset.nstdis = false := by decide

end Sys2Proof.Tests
end

section
/-! PROOFS. What software reads of the registers, and the steps that are input events. -/

namespace Sys2Proof.Machine

/-! ### Interrupt sources: their bits of the registers and of the masks -/

/-- The flag of a source is a bit of its own IFS register (R54). -/
theorem irqFlag_eq_get (s : State) {i : Nat} (h : i / 16 < 3) :
    s.irqFlag i = (s.ifs.get ⟨i / 16, h⟩).getLsbD (i % 16) := by
  simp [State.irqFlag, Vector.get_eq_getElem, h]

/-- The enable of a source is a bit of its own IEC register (R54). -/
theorem irqEnable_eq_get (s : State) {i : Nat} (h : i / 16 < 3) :
    s.irqEnable i = (s.iec.get ⟨i / 16, h⟩).getLsbD (i % 16) := by
  simp [State.irqEnable, Vector.get_eq_getElem, h]

/-- The level of a source is a field of its own IPC register (R54). -/
theorem irqLevel_eq_get (s : State) {i : Nat} (h : i / 4 < 12) :
    s.irqLevel i = ((s.ipc.get ⟨i / 4, h⟩).extractLsb' (4 * (i % 4)) 3).toNat := by
  simp [State.irqLevel, Vector.get_eq_getElem, h]

/-- The device implements no source above 44. -/
theorem lt_of_irqPresent {s : State} {i : Nat} (h : s.irqPresent i = true) : i < 45 :=
  BitVec.lt_of_getLsbD h

/-- In IFSk and IECk the mask keeps exactly the bits of the sources the device has (D12). -/
theorem getLsbD_and_irqMask (s : State) (v : Word) (i : Nat) :
    (v &&& irqMask s.device (i / 16)).getLsbD (i % 16) = (v.getLsbD (i % 16) && s.irqPresent i) := by
  have hlt : i % 16 < 16 := Nat.mod_lt _ (by omega)
  have hsum : 16 * (i / 16) + i % 16 = i := Nat.div_add_mod i 16
  simp [irqMask, State.irqPresent, hlt, hsum]

/-- One field of IPCk's mask: three bits of its nibble, where the device has the source (R40). -/
def ipcField (present : Bool) (j : Nat) : Word := if present then (0x7 : Word) <<< (4 * j) else 0

theorem ipcMask_eq (d : Device) (k : Nat) : ipcMask d k =
    ipcField (d.irqImplemented.getLsbD (4 * k)) 0 ||| ipcField (d.irqImplemented.getLsbD (4 * k + 1)) 1 |||
      ipcField (d.irqImplemented.getLsbD (4 * k + 2)) 2 ||| ipcField (d.irqImplemented.getLsbD (4 * k + 3)) 3 := rfl

theorem getLsbD_ipcField (present : Bool) (j n : Nat) : (ipcField present j).getLsbD n =
    (present && decide (n < 16) && decide (4 * j ≤ n) && decide (n < 4 * j + 3)) := by
  have h7 : ∀ m, (0x7 : Word).getLsbD m = decide (m < 3) := Nat.testBit_two_pow_sub_one 3
  cases present
  · simp [ipcField]
  · simp only [ipcField, if_true, BitVec.getLsbD_shiftLeft, h7]
    grind

/-- In IPCk the mask keeps exactly the fields of the sources the device has, and no fourth bit of a nibble (R40, D12). -/
theorem getLsbD_ipcMask (d : Device) (k : Nat) {j b : Nat} (hj : j < 4) (hb : b < 4) :
    (ipcMask d k).getLsbD (4 * j + b) = (d.irqImplemented.getLsbD (4 * k + j) && decide (b < 3)) := by
  simp only [ipcMask_eq, BitVec.getLsbD_or, getLsbD_ipcField]
  interval_cases j <;> interval_cases b <;> simp

/-- What a masked IPC field holds: the level's field where the device has the source, else 0 (D12). -/
theorem extractLsb'_and_ipcMask (s : State) (v : Word) (i : Nat) :
    (v &&& ipcMask s.device (i / 4)).extractLsb' (4 * (i % 4)) 3 =
      if s.irqPresent i then v.extractLsb' (4 * (i % 4)) 3 else 0 := by
  have hj : i % 4 < 4 := Nat.mod_lt _ (by omega)
  have hsum : 4 * (i / 4) + i % 4 = i := Nat.div_add_mod i 4
  apply BitVec.eq_of_getLsbD_eq
  intro b hb
  have hmask : (ipcMask s.device (i / 4)).getLsbD (4 * (i % 4) + b) = s.irqPresent i := by
    rw [getLsbD_ipcMask _ _ hj (by omega), hsum, decide_eq_true hb, Bool.and_true]
    rfl
  cases h : s.irqPresent i <;> simp [hmask, h]

/-- The fourth bit of a nibble is no bit of the mask (R40). -/
theorem getLsbD_and_ipcMask_top (d : Device) (v : Word) (k : Nat) {j : Nat} (hj : j < 4) :
    (v &&& ipcMask d k).getLsbD (4 * j + 3) = false := by
  rw [BitVec.getLsbD_and, getLsbD_ipcMask d k hj (by omega)]
  simp

/-! ### Bits that stay clear -/

/-- A mask sets no bit, so what is clear stays clear under it. -/
theorem and_and_eq_zero {v r : Word} (m : Word) (h : v &&& r = 0) : (v &&& m) &&& r = 0 := by
  rw [BitVec.and_assoc, BitVec.and_comm m r, ← BitVec.and_assoc, h]
  exact BitVec.zero_and

/-- Setting a bit outside `r` does not change the bits of `r`. -/
theorem setBit_and_of_outside (v r : Word) (b : Bool) {i : Nat} (h : r.getLsbD i = false) : setBit v i b &&& r = v &&& r := by
  apply BitVec.eq_of_getLsbD_eq
  intro j _
  simp only [BitVec.getLsbD_and, getLsbD_setBit]
  split
  · obtain ⟨rfl, -⟩ := ‹i = j ∧ j < 16›
    simp [h]
  · rfl

/-! ### Register reads -/

theorem readReg_ifs (k : Fin 3) (c : Cpu) : readReg (.ifs k) c = (c.st.ifs.get k &&& irqMask c.st.device k, c) := rfl
theorem readReg_iec (k : Fin 3) (c : Cpu) : readReg (.iec k) c = (c.st.iec.get k &&& irqMask c.st.device k, c) := rfl
theorem readReg_ipc (k : Fin 12) (c : Cpu) : readReg (.ipc k) c = (c.st.ipc.get k &&& ipcMask c.st.device k, c) := rfl
theorem readReg_intcon2 (c : Cpu) : readReg .intcon2 c = (setBit c.st.intcon2 14 (decide (c.st.disicnt ≠ 0)), c) := rfl
theorem readReg_rcon (c : Cpu) : readReg .rcon c = (setBit c.drawWord.1 15 c.st.trapr, c.drawWord.2) := rfl
theorem readReg_osccon (c : Cpu) : readReg .osccon c = (setBit c.drawWord.1 3 c.st.cf, c.drawWord.2) := rfl

/-- The flags software reads are those of the sources the device has (R35, D12). -/
theorem readReg_ifs_bit (s : State) {i : Nat} (h : i / 16 < 3) :
    (readReg (.ifs ⟨i / 16, h⟩) (start s)).1.getLsbD (i % 16) = (s.irqFlag i && s.irqPresent i) := by
  rw [readReg_ifs, irqFlag_eq_get s h]
  exact getLsbD_and_irqMask s _ i

/-- The enables software reads are those of the sources the device has (R36, D12). -/
theorem readReg_iec_bit (s : State) {i : Nat} (h : i / 16 < 3) :
    (readReg (.iec ⟨i / 16, h⟩) (start s)).1.getLsbD (i % 16) = (s.irqEnable i && s.irqPresent i) := by
  rw [readReg_iec, irqEnable_eq_get s h]
  exact getLsbD_and_irqMask s _ i

/-- The levels software reads are those of the sources the device has (R40, D12). -/
theorem readReg_ipc_field (s : State) {i : Nat} (h : i / 4 < 12) :
    ((readReg (.ipc ⟨i / 4, h⟩) (start s)).1.extractLsb' (4 * (i % 4)) 3).toNat =
      if s.irqPresent i then s.irqLevel i else 0 := by
  rw [readReg_ipc, irqLevel_eq_get s h]
  dsimp only [start_st]
  rw [extractLsb'_and_ipcMask]
  split <;> rfl

/-- The stored bits of INTCON2, and the DISI bit, which shows whether DISICNT is not 0 (R31). -/
theorem readReg_intcon2_bit (s : State) {b : Nat} (hb : b < 16) :
    (readReg .intcon2 (start s)).1.getLsbD b = if b = 14 then decide (s.disicnt ≠ 0) else s.intcon2.getLsbD b := by
  rw [readReg_intcon2, getLsbD_setBit]
  exact if_congr ⟨fun h => h.1.symm, fun h => ⟨h.symm, hb⟩⟩ rfl rfl

/-- TRAPR is the read value's bit 15, whatever the free bits beside it are (R59). -/
theorem readReg_rcon_trapr (s : State) : (readReg .rcon (start s)).1.getLsbD 15 = s.trapr := by
  rw [readReg_rcon, getLsbD_setBit, if_pos ⟨rfl, by omega⟩, start_st]

/-- CF is the read value's bit 3, whatever the free bits beside it are (R60). -/
theorem readReg_osccon_cf (s : State) : (readReg .osccon (start s)).1.getLsbD 3 = s.cf := by
  rw [readReg_osccon, getLsbD_setBit, if_pos ⟨rfl, by omega⟩, start_st]

/-- DISICNT reads as its 14 bits, the two above them 0 (R57). -/
theorem readReg_disicnt_toNat (s : State) : (readReg .disicnt (start s)).1.toNat = s.disicnt.toNat :=
  BitVec.toNat_setWidth_of_le (by omega)

/-- Where the unimplemented bits of the registers are 0, software reads them as 0 (R65). -/
theorem readReg_reserved_zero {s : State} (h : s.reservedClear) :
    let read (r : Reg) : Word := (readReg r (start s)).1
    read .intcon1 &&& 0x78E1 = 0 ∧ read .intcon2 &&& 0x3FE0 = 0 ∧ read .corcon &&& 0xE000 = 0 ∧
      read (.ifs 2) &&& 0xE000 = 0 ∧ read (.iec 2) &&& 0xE000 = 0 ∧ (∀ n, read (.ipc n) &&& 0x8888 = 0) ∧
      read (.ipc 11) &&& 0xFFF8 = 0 := by
  obtain ⟨hcorcon, hintcon1, hintcon2, hifs, hiec, hipc, hipc11⟩ := h
  refine ⟨hintcon1, ?_, hcorcon, and_and_eq_zero _ hifs, and_and_eq_zero _ hiec, fun n => and_and_eq_zero _ (hipc n),
    and_and_eq_zero _ hipc11⟩
  calc setBit s.intcon2 14 (decide (s.disicnt ≠ 0)) &&& 0x3FE0
      = s.intcon2 &&& (0x7FE0 &&& 0x3FE0) := setBit_and_of_outside _ _ _ rfl
    _ = (s.intcon2 &&& 0x7FE0) &&& 0x3FE0 := (BitVec.and_assoc ..).symm
    _ = 0 := by rw [hintcon2]; exact BitVec.zero_and

/-- Settles O59, register by register; the masks of the registers of flags, enables and levels are D12's. -/
theorem registerReadsShowTheState : Obligations.RegisterReadsShowTheState := by
  intro s
  refine ⟨fun r => readReg_cases r (start s), fun r => rfl, fun b hb => readReg_intcon2_bit s hb, readReg_disicnt_toNat s,
    readReg_rcon_trapr s, readReg_osccon_cf s, fun i hi => ?_, fun i hi => ?_, rfl, rfl, rfl, rfl,
    fun hinv => readReg_reserved_zero hinv.1⟩
  · have hk : i / 16 < 3 := by omega
    exact ⟨⟨i / 16, hk⟩, rfl, readReg_ifs_bit s hk, readReg_iec_bit s hk⟩
  · have hk : i / 4 < 12 := by omega
    exact ⟨⟨i / 4, hk⟩, rfl, readReg_ipc_field s hk, getLsbD_and_ipcMask_top _ _ _ (Nat.mod_lt _ (by omega))⟩

/-! ### Requests and pin samples -/

/-- A source the device does not have makes no request (D12). -/
theorem requestIrq_of_absent {s : State} {i : Nat} (h : s.irqPresent i = false) : s.requestIrq i = s := by
  simp [State.requestIrq, h]

/-- A request changes nothing but the flags (R35, R230). -/
theorem requestIrq_eq (s : State) (i : Nat) : s.requestIrq i = { s with ifs := (s.requestIrq i).ifs } := by
  unfold State.requestIrq
  split <;> rfl

/-- A request sets the source's own flag, where the device has the source, and no other (R35, R230). -/
theorem requestIrq_irqFlag (s : State) (i j : Nat) :
    (s.requestIrq i).irqFlag j = (s.irqFlag j || (decide (j = i) && s.irqPresent j)) := by
  cases hp : s.irqPresent i with
  | false =>
    rw [requestIrq_of_absent hp]
    by_cases hij : j = i <;> simp [hij, hp]
  | true =>
    have hi : i / 16 < 3 := by have := lt_of_irqPresent hp; omega
    simp only [State.requestIrq, hp, if_true, State.irqFlag, Vector.getElem?_setIfInBounds]
    by_cases hk : i / 16 = j / 16
    · have hbit : i % 16 = j % 16 ∧ j % 16 < 16 ↔ j = i := by omega
      rw [if_pos hk, if_pos hi, Option.getD_some, getLsbD_setBit, hk, if_congr hbit rfl rfl]
      by_cases hij : j = i <;> simp [hij, hp]
    · have hij : j ≠ i := fun h => hk (h ▸ rfl)
      simp [hk, hij]

/-- The request of a source the device has sets its flag and no other (R35, R230). -/
theorem requestIrq_irqFlag_of_present {s : State} {i : Nat} (h : s.irqPresent i = true) (j : Nat) :
    (s.requestIrq i).irqFlag j = (s.irqFlag j || decide (j = i)) := by
  rw [requestIrq_irqFlag]
  by_cases hij : j = i <;> simp [hij, h]

/-- The edge of the polarity INTkEP selects (R252): the level changes, and not to the polarity's own value. -/
theorem pinEdge_eq (negative before level : Bool) :
    (if negative then before && !level else !before && level) = ((before != level) && (negative != level)) := by
  cases negative <;> cases before <;> cases level <;> rfl

/-- A pin sample: the request at an edge of the selected polarity, and the level kept for the pin (R252, D24). -/
theorem samplePin_eq (s : State) (k : Fin 5) (level : Bool) :
    s.samplePin k level =
      { (if (s.pinPrev.getLsbD k != level) && (s.intcon2.getLsbD k != level) then s.requestIrq (pinIrq k) else s) with
        pinPrev := setBit s.pinPrev k level } := by
  rw [← pinEdge_eq]
  rfl

/-- A pin sample changes nothing but the flags and the level kept for the pin (R252). -/
theorem samplePin_frame (s : State) (k : Fin 5) (level : Bool) :
    s.samplePin k level = { s with ifs := (s.samplePin k level).ifs, pinPrev := setBit s.pinPrev k level } := by
  rw [samplePin_eq]
  split
  · rw [requestIrq_eq]
  · rfl

/-- The flag a pin sample sets: that of the pin's own source, at an edge of the selected polarity (R252, D24). -/
theorem samplePin_irqFlag (s : State) (k : Fin 5) (level : Bool) (j : Nat) :
    (s.samplePin k level).irqFlag j = (s.irqFlag j || (decide (j = pinIrq k) && s.irqPresent j &&
      (s.pinPrev.getLsbD k != level) && (s.intcon2.getLsbD k != level))) := by
  rw [samplePin_eq, Bool.and_assoc (decide _ && _)]
  split
  next hedge =>
    rw [hedge, Bool.and_true]
    exact requestIrq_irqFlag s (pinIrq k) j
  next hedge =>
    rw [Bool.eq_false_of_not_eq_true hedge, Bool.and_false, Bool.or_false]
    rfl

/-- The sources of the external interrupt pins (R252). -/
theorem pinIrq_eq (k : Fin 5) : pinIrq k = [0, 16, 23, 36, 37].getD k 0 := by
  revert k
  decide

/-! ### Event steps -/

/-- An event at the head of the schedule is a step of its own (R9, log 7). -/
theorem step_event (s : State) (e : InputEvent) (rest : List (Option InputEvent)) :
    step { s with inputs := some e :: rest } = .next (({ s with inputs := rest } : State).deliver e) := rfl

/-- The configuration that lets an oscillator failure happen (R225): FSCM for two of the causes, the PLL for two. -/
theorem oscFailPossible_iff (d : Device) (c : OscCause) :
    Device.oscFailPossible d c = true ↔
      (c ≠ .pllLockLoss → d.fscmEnabled = true) ∧ (c ≠ .clockLoss → d.pllInUse = true) := by
  cases c <;> simp [Device.oscFailPossible]

/-- Settles O55, event by event. -/
theorem inputEventsTakeAStepOfTheirOwn : Obligations.InputEventsTakeAStepOfTheirOwn := by
  intro s rest after u
  have hafter : ∀ e, after e = .next (u.deliver e) := fun e => step_event s e rest
  refine ⟨fun i => ⟨fun habsent => ?_, fun hpresent => ?_⟩, fun k level => ?_, fun c => ?_, rfl⟩
  · exact (hafter _).trans (congrArg _ (requestIrq_of_absent habsent))
  · refine ⟨(u.requestIrq i).ifs, (hafter _).trans (congrArg _ (requestIrq_eq u i)), fun j => ?_⟩
    rw [← requestIrq_eq]
    exact requestIrq_irqFlag_of_present (s := u) hpresent j
  · refine ⟨(u.samplePin k level).ifs, setBit u.pinPrev k level,
      (hafter _).trans (congrArg _ (samplePin_frame u k level)), fun j => ?_, fun j => ?_⟩
    · rw [getLsbD_setBit, if_congr (show (k : Nat) = j ∧ j < 5 ↔ j = k by omega) rfl rfl]
    · rw [← samplePin_frame, samplePin_irqFlag, pinIrq_eq]
      rfl
  · rw [hafter]
    simp only [State.deliver, oscFailPossible_iff]
    rfl

end Sys2Proof.Machine
end

section
/-! PROOFS. The values after Reset, and the bits of the registers that the CPU priority and the interrupt sources are. -/

namespace Sys2Proof.Machine

/-! ### After Reset -/

/-- After Reset every source has level 4 (R66). -/
theorem reset_irqLevel : ∀ i < 45, State.reset.irqLevel i = 4 := by decide

/-- After Reset no source is flagged, so none wins the arbitration (R66, R234). -/
theorem reset_winner : State.reset.winner = none := by
  have hnone : (List.range 45).filter State.reset.eligible = [] := by decide
  rw [State.winner, hnone]
  rfl

/-- Settles O5, register by register. -/
theorem resetStateHasSpecValues : Obligations.ResetStateHasSpecValues :=
  ⟨rfl, rfl, rfl, rfl, by decide, rfl, rfl, by decide, by decide, rfl, rfl, rfl, rfl, rfl, reset_irqLevel, by decide, reset_winner⟩

/-! ### The CPU priority and the sources -/

/-- The CPU priority is IPL3 above IPL<2:0> (R26). -/
theorem cpuIpl_eq (s : State) : s.cpuIpl = (if s.ipl3 then 8 else 0) + s.ipl.toNat := by
  have hlt : s.ipl.toNat < 2 ^ 3 := s.ipl.isLt
  rw [State.cpuIpl, BitVec.toNat_append, ← Nat.shiftLeft_add_eq_or_of_lt hlt]
  cases s.ipl3 <;> rfl

theorem cpuIpl_le (s : State) : s.cpuIpl ≤ 15 := Nat.le_of_lt_succ (BitVec.isLt _)

/-- A level is a field of three bits (R54). -/
theorem irqLevel_lt (s : State) (i : Nat) : s.irqLevel i < 8 := BitVec.isLt _

/-- The bits of a source's level are those of its nibble of its own IPC register (R54). -/
theorem irqLevel_testBit (s : State) {i b : Nat} (h : i / 4 < 12) (hb : b < 3) :
    (s.irqLevel i).testBit b = (s.ipc.get ⟨i / 4, h⟩).getLsbD (4 * (i % 4) + b) := by
  rw [irqLevel_eq_get s h]
  show (BitVec.extractLsb' _ 3 _).getLsbD b = _
  simp [hb]

/-- Settles O18. -/
theorem priorityAndSourcesAreRegisterBits : Obligations.PriorityAndSourcesAreRegisterBits := by
  refine ⟨⟨fun s => ⟨rfl, rfl, cpuIpl_eq s, cpuIpl_le s⟩, by decide⟩, fun s i hi => ?_⟩
  have hk : i / 16 < 3 := by omega
  exact ⟨irqFlag_eq_get s hk, irqEnable_eq_get s hk, fun b hb => ⟨irqLevel_lt s i, irqLevel_testBit s (by omega) hb⟩⟩

end Sys2Proof.Machine
end

section
/-! PROOFS. What every part of a step keeps of the state, and the statements about every step: the invariant, IPL3, the enables. -/

namespace Sys2Proof.Machine

/-! ### The reset states -/

/-- Settles O7. -/
theorem resetStateKeepsInvariant : Obligations.ResetStateKeepsInvariant :=
  ⟨by decide, ⟨rfl, fun _ h => nomatch h⟩, by decide⟩

/-- A device Reset gives the registers their values after Reset and keeps program memory, so the invariant asks no more of the state
before than a canonical program memory. -/
theorem deviceReset_inv (cause : ResetCause) {s : State} (h : s.prog.wf) : (deviceReset cause s).Inv := by
  obtain ⟨hreserved, haddresses, hdata, -, hrange⟩ := resetStateKeepsInvariant
  exact ⟨hreserved, haddresses, hdata, h, hrange⟩

/-! ### What a part of a step keeps -/

/-- What every part of a step keeps, from `s` to `t`, unless the device was Reset. -/
structure Keeps (s t : State) : Prop where
  prog : t.prog = s.prog
  device : t.device = s.device
  inputs : t.inputs = s.inputs
  armed : s.splimArmed = true → t.splimArmed = true
  inv : s.Inv → t.Inv

/-- What every part of a step keeps but a trap's entry and RETFIE's return: IPL3 stays clear too (R25). -/
structure Evolves (s t : State) : Prop extends Keeps s t where
  ipl3 : s.ipl3 = false → t.ipl3 = false

/-- `t` is what a device Reset leaves, of a state in the run that `s` belongs to. -/
def ResetFrom (s t : State) : Prop :=
  ∃ cause u, t = deviceReset cause u ∧ u.prog = s.prog ∧ u.device = s.device ∧ u.inputs = s.inputs

/-- Every way a part of a step begun in `s` can end well: it goes on from a state evolved from `s`, or the device was Reset. -/
def Run.EvolvesFrom {α : Type} (s : State) (m : Run α) : Prop := m.Sat (fun _ c => Evolves s c.st) (ResetFrom s)

theorem Keeps.trans {s t u : State} (hst : Keeps s t) (htu : Keeps t u) : Keeps s u where
  prog := htu.prog.trans hst.prog
  device := htu.device.trans hst.device
  inputs := htu.inputs.trans hst.inputs
  armed h := htu.armed (hst.armed h)
  inv h := htu.inv (hst.inv h)

theorem Evolves.trans {s t u : State} (hst : Evolves s t) (htu : Evolves t u) : Evolves s u where
  toKeeps := hst.toKeeps.trans htu.toKeeps
  ipl3 h := htu.ipl3 (hst.ipl3 h)

theorem Evolves.refl (s : State) : Evolves s s := ⟨⟨rfl, rfl, rfl, id, id⟩, id⟩

theorem Keeps.resetFrom {s t u : State} (hst : Keeps s t) (h : ResetFrom t u) : ResetFrom s u := by
  obtain ⟨cause, v, rfl, hprog, hdevice, hinputs⟩ := h
  exact ⟨cause, v, rfl, hprog.trans hst.prog, hdevice.trans hst.device, hinputs.trans hst.inputs⟩

theorem resetFrom_deviceReset (cause : ResetCause) (s : State) : ResetFrom s (deviceReset cause s) :=
  ⟨cause, s, rfl, rfl, rfl, rfl⟩

theorem ResetFrom.inv {s t : State} (h : ResetFrom s t) (hs : s.Inv) : t.Inv := by
  obtain ⟨cause, u, rfl, hprog, -, -⟩ := h
  obtain ⟨-, -, -, hwf, -⟩ := hs
  exact deviceReset_inv cause (hprog ▸ hwf)

theorem ResetFrom.ipl3 {s t : State} (h : ResetFrom s t) : t.ipl3 = false := by
  obtain ⟨cause, u, rfl, -⟩ := h
  exact (by decide : State.reset.ipl3 = false)

theorem evolvesFrom_ok {α : Type} {s : State} {x : α} {c : Cpu} (h : Evolves s c.st) : (Run.ok x c).EvolvesFrom s := h

theorem Run.EvolvesFrom.after {α : Type} {s t : State} {m : Run α} (hm : m.EvolvesFrom t) (h : Evolves s t) : m.EvolvesFrom s :=
  sat_mono hm (fun _ _ hc => h.trans hc) (fun _ hr => h.toKeeps.resetFrom hr)

/-- One part after another: each from where it begins. -/
theorem Run.EvolvesFrom.bind {α β : Type} {s : State} {m : Run α} {f : α → Cpu → Run β} (hm : m.EvolvesFrom s)
    (hf : ∀ x c, (f x c).EvolvesFrom c.st) : (m.bind f).EvolvesFrom s :=
  sat_bind hm fun x c hc => (hf x c).after hc

/-- What a whole step answers, from what its parts keep. -/
theorem outcome_sat {m : Run Unit} {P : State → Prop} {t : State} (h : m.outcome = .next t) (hm : m.Sat (fun _ c => P c.st) P) :
    P t := by
  rcases outcome_next hm h with ⟨c, hc, rfl⟩ | ht
  · exact hc
  · exact ht

theorem Run.EvolvesFrom.outcome {s t : State} {m : Run Unit} (hm : m.EvolvesFrom s) (h : m.outcome = .next t) :
    Evolves s t ∨ ResetFrom s t :=
  outcome_sat (P := fun t => Evolves s t ∨ ResetFrom s t) h (sat_mono hm (fun _ _ => .inl) fun _ => .inr)

/-! ### The updates of the state that an instruction is made of -/

/-- A change of fields that neither the invariant nor IPL3 reads. -/
theorem Evolves.of_frame {s t : State} (h : t = { s with
    w := t.w, sr := t.sr, disicnt := t.disicnt, splim := t.splim, trapr := t.trapr, cf := t.cf, accA := t.accA, accB := t.accB,
    runState := t.runState, pinPrev := t.pinPrev, acceptAge := t.acceptAge, bufferPc := t.bufferPc, bufferSrl := t.bufferSrl,
    draws := t.draws, epoch := t.epoch }) : Evolves s t := by
  rw [h]
  exact ⟨⟨rfl, rfl, rfl, id, id⟩, id⟩

theorem evolves_splim (s : State) (v : Word) (b : Bool) :
    Evolves s { s with splim := v, splimArmed := s.splimArmed || b } :=
  ⟨⟨rfl, rfl, rfl, fun h => by simp [h], id⟩, id⟩

theorem evolves_pc {s : State} {p : PC} (h : s.pc.getLsbD 0 = false → p.getLsbD 0 = false) : Evolves s { s with pc := p } :=
  ⟨⟨rfl, rfl, rfl, id, fun ⟨hreserved, ⟨hpc, hloop⟩, hmem⟩ => ⟨hreserved, ⟨h hpc, hloop⟩, hmem⟩⟩, id⟩

theorem evolves_loop {s : State} {o : Option RepeatLoop}
    (h : s.addressesEven → ∀ l, o = some l → l.target.getLsbD 0 = false) : Evolves s { s with loop := o } :=
  ⟨⟨rfl, rfl, rfl, id, fun ⟨hreserved, heven, hmem⟩ => ⟨hreserved, ⟨heven.1, h heven⟩, hmem⟩⟩, id⟩

theorem keeps_corcon {s : State} {v : Word} (h : v &&& 0xE000 = s.corcon &&& 0xE000) : Keeps s { s with corcon := v } :=
  ⟨rfl, rfl, rfl, id, fun ⟨⟨hcorcon, hrest⟩, heven, hmem⟩ => ⟨⟨h.trans hcorcon, hrest⟩, heven, hmem⟩⟩

theorem evolves_corcon {s : State} {v : Word} (h : v &&& 0xE000 = s.corcon &&& 0xE000)
    (h3 : s.corcon.getLsbD 3 = false → v.getLsbD 3 = false) : Evolves s { s with corcon := v } :=
  ⟨keeps_corcon h, h3⟩

theorem evolves_intcon1 {s : State} {v : Word} (h : v &&& 0x78E1 = s.intcon1 &&& 0x78E1) : Evolves s { s with intcon1 := v } :=
  ⟨⟨rfl, rfl, rfl, id, fun ⟨⟨hcorcon, hintcon1, hrest⟩, heven, hmem⟩ =>
    ⟨⟨hcorcon, h.trans hintcon1, hrest⟩, heven, hmem⟩⟩, id⟩

theorem evolves_intcon2 {s : State} {v : Word} (h : v &&& 0x7FE0 = s.intcon2 &&& 0x7FE0) : Evolves s { s with intcon2 := v } :=
  ⟨⟨rfl, rfl, rfl, id, fun ⟨⟨hcorcon, hintcon1, hintcon2, hrest⟩, heven, hmem⟩ =>
    ⟨⟨hcorcon, hintcon1, h.trans hintcon2, hrest⟩, heven, hmem⟩⟩, id⟩

theorem evolves_ifs {s : State} {v : Vector Word 3} (h : v.get 2 &&& 0xE000 = s.ifs.get 2 &&& 0xE000) :
    Evolves s { s with ifs := v } :=
  ⟨⟨rfl, rfl, rfl, id, fun ⟨⟨hcorcon, hintcon1, hintcon2, hifs, hrest⟩, heven, hmem⟩ =>
    ⟨⟨hcorcon, hintcon1, hintcon2, h.trans hifs, hrest⟩, heven, hmem⟩⟩, id⟩

theorem evolves_iec {s : State} {v : Vector Word 3} (h : v.get 2 &&& 0xE000 = s.iec.get 2 &&& 0xE000) :
    Evolves s { s with iec := v } :=
  ⟨⟨rfl, rfl, rfl, id, fun ⟨⟨hcorcon, hintcon1, hintcon2, hifs, hiec, hrest⟩, heven, hmem⟩ =>
    ⟨⟨hcorcon, hintcon1, hintcon2, hifs, h.trans hiec, hrest⟩, heven, hmem⟩⟩, id⟩

theorem evolves_ipc {s : State} {v : Vector Word 12} (h : ∀ k, v.get k &&& 0x8888 = s.ipc.get k &&& 0x8888)
    (h11 : v.get 11 &&& 0xFFF8 = s.ipc.get 11 &&& 0xFFF8) : Evolves s { s with ipc := v } :=
  ⟨⟨rfl, rfl, rfl, id, fun ⟨⟨hcorcon, hintcon1, hintcon2, hifs, hiec, hipc, hipc11⟩, heven, hmem⟩ =>
    ⟨⟨hcorcon, hintcon1, hintcon2, hifs, hiec, fun k => (h k).trans (hipc k), h11.trans hipc11⟩, heven, hmem⟩⟩, id⟩

/-- A word stored at an even address of data memory: its two bytes stand from 0x0800 to 0xFFFF (R101). -/
theorem evolves_storeWord {s : State} {a : Word} (v : Word) (heven : a.getLsbD 0 = false) (hlo : ¬ a < 0x0800) :
    Evolves s (s.storeWord a v) := by
  refine ⟨⟨rfl, rfl, rfl, id, fun ⟨hreserved, haddr, hdata, hprog, hrange⟩ =>
    ⟨hreserved, haddr, storeWord_wf a v hdata, hprog, fun cell hcell => ?_⟩⟩, id⟩
  have hbit : a.toNat.testBit 0 = false := heven
  have hlo : ¬ a.toNat < 0x0800 := hlo
  have hlt := a.isLt
  simp at hbit
  rcases Memory.mem_write hcell with rfl | hcell
  · dsimp only; omega
  rcases Memory.mem_write hcell with rfl | hcell
  · dsimp only; omega
  exact hrange cell hcell

/-! ### Register values under a software write -/

/-- A software write leaves the bits of `r` as they are when no bit of `r` has an access code (R6). -/
theorem accessWrite_and_of_outside {rw rc r : Word} (mask old new : Word) (h : (rw ||| rc) &&& r = 0) :
    accessWrite rw rc mask old new &&& r = old &&& r := by
  apply BitVec.eq_of_getLsbD_eq
  intro i _
  have hi : ((rw.getLsbD i || rc.getLsbD i) && r.getLsbD i) = false := by
    rw [← BitVec.getLsbD_or, ← BitVec.getLsbD_and, h]
    exact BitVec.getLsbD_zero
  rw [BitVec.getLsbD_and, BitVec.getLsbD_and, getLsbD_accessWrite]
  cases hr : r.getLsbD i
  · simp
  · simp only [hr, Bool.and_true, Bool.or_eq_false_iff] at hi
    simp [hi]

/-- IFS2 and IEC2 have 13 sources: the device implements none above 44 (R4). -/
theorem irqMask_two_and (d : Device) : irqMask d 2 &&& 0xE000 = 0 := by
  have hbits : ∀ i < 16, (0xE000 : Word).getLsbD i = decide (13 ≤ i) := by decide
  apply BitVec.eq_of_getLsbD_eq
  intro i hi
  rw [BitVec.getLsbD_and, hbits i hi]
  by_cases h13 : 13 ≤ i
  · simp [irqMask, BitVec.getLsbD_of_ge d.irqImplemented (32 + i) (by omega)]
  · simp [h13]

/-- No nibble of IPCk has an implemented fourth bit (R40). -/
theorem ipcMask_and (d : Device) (k : Nat) : ipcMask d k &&& 0x8888 = 0 := by
  have hbits : ∀ i < 16, (0x8888 : Word).getLsbD i = decide (i % 4 = 3) := by decide
  apply BitVec.eq_of_getLsbD_eq
  intro i hi
  have hi4 : 4 * (i / 4) + i % 4 = i := Nat.div_add_mod i 4
  rw [BitVec.getLsbD_and, hbits i hi]
  by_cases h3 : i % 4 = 3
  · rw [← hi4, getLsbD_ipcMask d k (by omega) (Nat.mod_lt _ (by omega))]
    simp [h3]
  · simp [h3]

/-- IPC11 holds the level of IRQ 44 alone: the device implements none above it (R4, R52). -/
theorem ipcMask_eleven_and (d : Device) : ipcMask d 11 &&& 0xFFF8 = 0 := by
  have hbits : ∀ i < 16, (0xFFF8 : Word).getLsbD i = decide (3 ≤ i) := by decide
  apply BitVec.eq_of_getLsbD_eq
  intro i hi
  have hi4 : 4 * (i / 4) + i % 4 = i := Nat.div_add_mod i 4
  rw [BitVec.getLsbD_and, hbits i hi, ← hi4, getLsbD_ipcMask d 11 (by omega) (Nat.mod_lt _ (by omega))]
  by_cases h0 : i / 4 = 0
  · by_cases h3 : i % 4 < 3
    · simp [h0, h3, Nat.not_le.2 h3]
    · simp [h3]
  · simp [BitVec.getLsbD_of_ge d.irqImplemented (4 * 11 + i / 4) (by omega)]

/-- Bits of a vector's words that stay when one word is replaced by one with the same bits. -/
theorem get_set_and {n : Nat} {v : Vector Word n} {k j : Fin n} {x r : Word} (h : k = j → x &&& r = v.get k &&& r) :
    (v.set k x).get j &&& r = v.get j &&& r := by
  by_cases hk : k = j
  · subst hk
    simpa [Vector.get_eq_getElem] using h rfl
  · have : (k : Nat) ≠ j := fun e => hk (Fin.ext e)
    simp [Vector.get_eq_getElem, this]

/-! ### Traps and registers -/

theorem update_evolves (c : Cpu) {f : State → State} (h : ∀ s, Evolves s (f s)) : Evolves c.st (c.update f).st := h c.st

/-- The four trap flags are implemented bits of INTCON1 (R28, R65). -/
theorem evolves_flagTrap (s : State) (t : Trap) : Evolves s (s.flagTrap t) :=
  evolves_intcon1 (setBit_and_of_outside _ _ _ (by cases t <;> decide))

theorem raise_evolvesFrom (t : Trap) (c : Cpu) : (raise t c).EvolvesFrom c.st := by
  unfold raise
  split
  · exact resetFrom_deviceReset _ _
  · exact evolvesFrom_ok (evolves_flagTrap c.st t)

theorem raiseTrap_cases (s : State) (t : Trap) : Evolves s (s.raiseTrap t) ∨ ResetFrom s (s.raiseTrap t) := by
  unfold State.raiseTrap
  split
  · exact .inr (resetFrom_deviceReset _ _)
  · exact .inl (evolves_flagTrap s t)

theorem addressError_evolvesFrom (c : Cpu) : (addressError c).EvolvesFrom c.st :=
  raise_evolvesFrom .addrErr { c with inhibit := true }

theorem raiseAll_evolvesFrom (ts : List Trap) : ∀ c : Cpu, (raiseAll ts c).EvolvesFrom c.st := by
  induction ts with
  | nil => exact fun c => evolvesFrom_ok (.refl c.st)
  | cons t rest ih => exact fun c => (raise_evolvesFrom t c).bind fun _ c => ih c

theorem writeW_evolves (r : WReg) (v : Word) (c : Cpu) : Evolves c.st (writeW r v c).st := by
  have hput : Evolves c.st (c.st.putW r v) := .of_frame rfl
  rcases writeW_cases r v c with h | h <;> rw [h]
  · exact hput
  · exact hput.trans (evolves_flagTrap _ _)

theorem pointerAdd_evolves (r : WReg) (d : Int) (c : Cpu) : Evolves c.st (pointerAdd r d c).2.st := by
  rcases pointerAdd_cases r d c with h | h <;> rw [h]
  · exact .refl _
  · exact evolves_flagTrap _ _

theorem readReg_evolves (r : Reg) (c : Cpu) : Evolves c.st (readReg r c).2.st := by
  rcases readReg_cases r c with h | h <;> rw [h]
  · exact .refl _
  · exact .of_frame rfl

theorem writeIntcon1_evolvesFrom (mask v : Word) (c : Cpu) : (writeIntcon1 mask v c).EvolvesFrom c.st := by
  have hwrite : Evolves c.st { c.st with
      intcon1 := accessWrite 0x8700 (if c.st.mathErrHeld then 0x000E else 0x001E) mask c.st.intcon1 v } :=
    evolves_intcon1 (accessWrite_and_of_outside _ _ _ (by split <;> decide))
  unfold writeIntcon1
  dsimp only
  split
  · exact (raiseAll_evolvesFrom _ _).after (hwrite.trans (.of_frame rfl))
  · exact evolvesFrom_ok hwrite

/-- A software write of a register changes implemented bits only, sets no IPL3 and disarms nothing (R6, R25, R58, R65). -/
theorem writeReg_evolvesFrom (r : Reg) (whole : Bool) (mask v : Word) (c : Cpu) :
    (writeReg r whole mask v c).EvolvesFrom c.st := by
  cases r with
  | w i => exact evolvesFrom_ok (writeW_evolves _ _ _)
  | splim => exact evolvesFrom_ok (evolves_splim c.st _ _)
  | sr => exact evolvesFrom_ok (.of_frame rfl)
  | corcon =>
    refine evolvesFrom_ok (evolves_corcon (accessWrite_and_of_outside _ _ _ (by decide)) fun h3 => ?_)
    rw [getLsbD_accessWrite, h3]
    simp
  | disicnt =>
    simp only [writeReg]
    split
    · exact evolvesFrom_ok (.refl _)
    · exact evolvesFrom_ok (.of_frame rfl)
  | rcon =>
    simp only [writeReg]
    split
    · exact evolvesFrom_ok (.of_frame rfl)
    · exact evolvesFrom_ok (.refl _)
  | osccon =>
    simp only [writeReg]
    split
    · exact evolvesFrom_ok (.of_frame rfl)
    · exact evolvesFrom_ok (.refl _)
  | intcon1 => exact writeIntcon1_evolvesFrom mask v c
  | intcon2 => exact evolvesFrom_ok (evolves_intcon2 (accessWrite_and_of_outside _ _ _ (by decide)))
  | ifs k =>
    refine evolvesFrom_ok (evolves_ifs (get_set_and fun hk => accessWrite_and_of_outside _ _ _ ?_))
    subst hk
    exact (congrArg (· &&& _) BitVec.or_zero).trans (irqMask_two_and _)
  | iec k =>
    refine evolvesFrom_ok (evolves_iec (get_set_and fun hk => accessWrite_and_of_outside _ _ _ ?_))
    subst hk
    exact (congrArg (· &&& _) BitVec.or_zero).trans (irqMask_two_and _)
  | ipc k =>
    simp only [writeReg]
    split
    · trivial
    · refine evolvesFrom_ok (evolves_ipc (fun j => get_set_and fun _ => accessWrite_and_of_outside _ _ _ ?_)
        (get_set_and fun hk => accessWrite_and_of_outside _ _ _ ?_))
      · exact (congrArg (· &&& _) BitVec.or_zero).trans (ipcMask_and _ _)
      · subst hk
        exact (congrArg (· &&& _) BitVec.or_zero).trans (ipcMask_eleven_and _)

/-! ### Data accesses and the stack -/

theorem stackLimit_evolves (b : Bool) (ea : Word) (c : Cpu) : Evolves c.st (stackLimit b ea c).st := by
  rcases stackLimit_cases b ea c with h | h <;> rw [h]
  · exact .refl _
  · exact evolves_flagTrap _ _

theorem failedRead_evolvesFrom (c : Cpu) : (failedRead c).EvolvesFrom c.st :=
  (addressError_evolvesFrom c).bind fun _ _ => evolvesFrom_ok (.of_frame rfl)

theorem readWord_evolvesFrom (ea : Word) (viaW15 : Bool) (c : Cpu) : (readWord ea viaW15 c).EvolvesFrom c.st := by
  refine Run.EvolvesFrom.after (t := (stackLimit viaW15 ea c).st) ?_ (stackLimit_evolves _ _ _)
  unfold readWord
  dsimp only
  split
  · exact failedRead_evolvesFrom _
  split
  · split
    · exact evolvesFrom_ok (readReg_evolves _ _)
    · trivial
  split
  · exact evolvesFrom_ok (.refl _)
  · exact failedRead_evolvesFrom _

theorem writeWord_evolvesFrom (ea v : Word) (viaW15 : Bool) (c : Cpu) : (writeWord ea v viaW15 c).EvolvesFrom c.st := by
  refine Run.EvolvesFrom.after (t := (stackLimit viaW15 ea c).st) ?_ (stackLimit_evolves _ _ _)
  unfold writeWord
  dsimp only
  split
  · exact addressError_evolvesFrom _
  next hodd =>
    split
    · exact evolvesFrom_ok (.refl _)
    split
    · split
      · exact writeReg_evolvesFrom _ _ _ _ _
      · trivial
    next hlo =>
      split
      · exact evolvesFrom_ok (evolves_storeWord v (Bool.eq_false_of_not_eq_true hodd) hlo)
      · exact evolvesFrom_ok (.refl _)

theorem push16_evolvesFrom (v : Word) (c : Cpu) : (push16 v c).EvolvesFrom c.st :=
  (writeWord_evolvesFrom _ _ _ _).bind fun _ c =>
    evolvesFrom_ok ((pointerAdd_evolves 15 2 c).trans (writeW_evolves _ _ _))

theorem pop16_evolvesFrom (c : Cpu) : (pop16 c).EvolvesFrom c.st :=
  (readWord_evolvesFrom _ _ _).after ((pointerAdd_evolves 15 (-2) c).trans (writeW_evolves _ _ _))

/-! ### Operands -/

theorem pointer_evolves (m : AddrMode) (r : WReg) (size : Int) (c : Cpu) : Evolves c.st (pointer m r size c).2.st := by
  cases m with
  | direct | indirect | unused6 | unused7 => exact .refl _
  | postDec | postInc | preDec | preInc => exact (pointerAdd_evolves _ _ c).trans (writeW_evolves _ _ _)

theorem upperAddress_evolves (viaW15 : Bool) (ea : Word) (c : Cpu) : Evolves c.st (upperAddress viaW15 ea c).2.st := by
  unfold upperAddress
  dsimp only
  split
  · exact evolves_flagTrap _ _
  · exact .refl _

theorem unusedMode_evolvesFrom {α : Type} (c : Cpu) : (unusedMode (α := α) c).EvolvesFrom c.st := resetFrom_deviceReset _ _

theorem readOperand_evolvesFrom (m : AddrMode) (r : WReg) (c : Cpu) : (readOperand m r c).EvolvesFrom c.st := by
  cases m with
  | direct => exact evolvesFrom_ok (.refl _)
  | unused6 | unused7 => exact unusedMode_evolvesFrom c
  | indirect | postDec | postInc | preDec | preInc => exact (readWord_evolvesFrom _ _ _).after (pointer_evolves _ r 2 c)

theorem readDouble_evolvesFrom (ea : Word) (viaW15 : Bool) (c : Cpu) : (readDouble ea viaW15 c).EvolvesFrom c.st :=
  (readWord_evolvesFrom _ _ _).bind fun _ c =>
    ((readWord_evolvesFrom _ _ _).after (upperAddress_evolves viaW15 ea c)).bind fun _ c => evolvesFrom_ok (.refl c.st)

theorem readPair_evolvesFrom (m : AddrMode) (r : WReg) (c : Cpu) : (readPair m r c).EvolvesFrom c.st := by
  cases m with
  | direct => exact evolvesFrom_ok (.refl _)
  | unused6 | unused7 => exact unusedMode_evolvesFrom c
  | indirect | postDec | postInc | preDec | preInc => exact (readDouble_evolvesFrom _ _ _).after (pointer_evolves _ r 4 c)

theorem writePairRegs_evolves (k : BitVec 3) (lo hi : Word) (c : Cpu) : Evolves c.st (writePairRegs k lo hi c).st :=
  (writeW_evolves _ _ c).trans (writeW_evolves _ _ _)

theorem writeDouble_evolvesFrom (ea lo hi : Word) (viaW15 : Bool) (c : Cpu) :
    (writeDouble ea lo hi viaW15 c).EvolvesFrom c.st :=
  (writeWord_evolvesFrom _ _ _ _).bind fun _ c => (writeWord_evolvesFrom _ _ _ _).after (upperAddress_evolves viaW15 ea c)

theorem writePair_evolvesFrom (m : AddrMode) (r : WReg) (lo hi : Word) (c : Cpu) :
    (writePair m r lo hi c).EvolvesFrom c.st := by
  cases m with
  | direct => exact evolvesFrom_ok (writePairRegs_evolves _ _ _ _)
  | unused6 | unused7 => exact unusedMode_evolvesFrom c
  | indirect | postDec | postInc | preDec | preInc => exact (writeDouble_evolvesFrom _ _ _ _ _).after (pointer_evolves _ r 4 c)

/-! ### Accumulators, the PC, the end of an instruction -/

theorem accumulatorEvents_evolves (x : AccSel) (carry31 carry39 : Bool) (c : Cpu) :
    Evolves c.st (accumulatorEvents x carry31 carry39 c).st := by
  have hsr : Evolves c.st { c.st with sr := setBit c.st.sr (ovfBit x) (c.st.overflow x carry31) } := .of_frame rfl
  unfold accumulatorEvents
  dsimp only
  split
  · exact hsr.trans (evolves_flagTrap _ _)
  · exact hsr

theorem drawDspFlags_evolves (x : AccSel) (c : Cpu) : Evolves c.st (drawDspFlags x c).st := .of_frame rfl

/-- An address written with its bit 0 as 0 is even (R21). -/
theorem getLsbD_append_zero {n : Nat} (a : BitVec n) : (a ++ 0#1).getLsbD 0 = false := by
  rw [BitVec.getLsbD_append]
  rfl

/-- The PC moved by an even amount stays even, and the free PC past the end of program space is even (R21, N12). -/
theorem movePc_evolves {d : Int} (c : Cpu) (hd : d % 2 = 0) : Evolves c.st (movePc d c).st := by
  unfold movePc
  dsimp only
  split
  next hin =>
    refine evolves_pc fun hpc => ?_
    have hpc : c.st.pc.toNat.testBit 0 = false := hpc
    show (BitVec.ofInt 23 _).toNat.testBit 0 = false
    simp [BitVec.toNat_ofInt] at hpc ⊢
    omega
  next =>
    have hpc : Evolves c.st { c.st with pc := Config.freePc c.st.draws ++ 0#1 } :=
      evolves_pc fun _ => getLsbD_append_zero _
    exact hpc.trans (.of_frame rfl)

theorem advance_evolves (words : Nat) (c : Cpu) : Evolves c.st (advance words c).st := movePc_evolves c (by omega)

theorem retire_evolves (i : Instr) (s : State) (c : Cpu) : Evolves c.st (retire i s c).st := by
  obtain ⟨n, h⟩ := retire_st i s c
  rw [h]
  exact .of_frame rfl

/-- The end of most instructions: the PC moved past it, its cycles counted. -/
theorem finish_evolves (i : Instr) (s : State) (c : Cpu) : Evolves c.st (retire i s (advance 1 c)).st :=
  (advance_evolves 1 c).trans (retire_evolves _ _ _)

theorem skipIf_evolves (skip : Bool) (c : Cpu) : Evolves c.st (skipIf skip c).st := by
  unfold skipIf
  split
  · exact advance_evolves _ c
  · exact advance_evolves 1 c

/-! ### Instructions -/

/-- What an instruction that always completes answers, from what it keeps. -/
theorem evolves_of_next {s t u : State} (h : (.next u : Host.Outcome State Fault Refusal) = .next t) (hu : Evolves s u) :
    Evolves s t ∨ ResetFrom s t :=
  .inl (Host.Outcome.next.inj h ▸ hu)

theorem jumpLiteral_evolvesFrom (i : Instr) (s : State) (c : Cpu) : (jumpLiteral i s c).EvolvesFrom c.st := by
  refine Run.EvolvesFrom.bind ?_ fun _ c => evolvesFrom_ok (retire_evolves i s c)
  split
  · exact evolvesFrom_ok (.refl _)
  · exact addressError_evolvesFrom c

theorem execReturn_evolves {s t : State} (h : execReturn s = .next t) : Evolves s t ∨ ResetFrom s t := by
  refine Run.EvolvesFrom.outcome ((pop16_evolvesFrom (start s)).bind fun hi c => (pop16_evolvesFrom c).bind fun lo c => ?_) h
  refine evolvesFrom_ok ((update_evolves c fun u => ?_).trans (retire_evolves _ _ _))
  exact evolves_pc fun _ => getLsbD_append_zero _

/-- A loop's target is the PC after its REPEAT, even as the PC is (R176). -/
theorem startLoop_evolves {i : Instr} {count : Word} {s t : State} (h : startLoop i count s = .next t) :
    Evolves s t ∨ ResetFrom s t := by
  refine evolves_of_next h (((advance_evolves 1 (start s)).trans (update_evolves _ fun u => ?_)).trans (retire_evolves _ _ _))
  have hloop : Evolves u { u with loop := some { target := u.pc, left := count, started := false } } :=
    evolves_loop fun heven l hl => Option.some.inj hl ▸ heven.1
  exact hloop.trans (.of_frame rfl)

theorem shiftAccumulator_evolves {i : Instr} {x : AccSel} {k : Int} {s t : State} (h : shiftAccumulator i x k s = .next t) :
    Evolves s t ∨ ResetFrom s t := by
  refine evolves_of_next h (.trans ?_ (finish_evolves _ _ _))
  split
  · exact evolves_flagTrap s .mathErr
  · refine ((accumulatorEvents_evolves x _ _ (start s)).trans (update_evolves _ fun u => ?_)).trans (drawDspFlags_evolves x _)
    exact .of_frame (by cases x <;> rfl)

theorem divideStep_evolves {i : Instr} {divisor : Word} {s t : State} (h : divideStep i divisor s = .next t) :
    Evolves s t ∨ ResetFrom s t := by
  refine evolves_of_next h ((Evolves.trans ?_ (update_evolves _ fun u => ?_)).trans (finish_evolves _ _ _))
  · split
    · exact evolves_flagTrap s .mathErr
    · exact .refl s
  · exact .of_frame rfl

/-- Every instruction but RETFIE: it keeps the invariant and sets no IPL3, or resets the device. -/
theorem exec_evolves {i : Instr} (hi : i ≠ .retfie) {s t : State} (h : exec i s = .next t) : Evolves s t ∨ ResetFrom s t := by
  cases i with
  | nop | gotoWord2 n => exact evolves_of_next h (finish_evolves _ s (start s))
  | bra n => exact ((jumpLiteral_evolvesFrom _ _ _).after (movePc_evolves (start s) (by omega))).outcome h
  | goto target =>
    refine Run.EvolvesFrom.outcome ((jumpLiteral_evolvesFrom _ _ _).after (update_evolves (start s) fun u => ?_)) h
    exact evolves_pc fun _ => getLsbD_append_zero _
  | returnSub => exact execReturn_evolves h
  | retfie => exact absurd rfl hi
  | repeatLit k | repeatReg r => exact startLoop_evolves h
  | disi k =>
    refine evolves_of_next h ((advance_evolves 1 (start s)).trans (update_evolves _ fun u => ?_))
    exact .of_frame rfl
  | reset => exact .inr (Host.Outcome.next.inj h ▸ resetFrom_deviceReset .software s)
  | pwrsav mode =>
    refine evolves_of_next h (((advance_evolves 1 (start s)).trans (update_evolves _ fun u => ?_)).trans (retire_evolves _ _ _))
    exact .of_frame rfl
  | sftacLit acc k | sftacReg acc r => exact shiftAccumulator_evolves h
  | push f =>
    exact ((readWord_evolvesFrom _ _ _).bind fun v c => (push16_evolvesFrom v c).bind fun _ c =>
      evolvesFrom_ok (finish_evolves _ _ c)).outcome h
  | pop f =>
    exact ((pop16_evolvesFrom _).bind fun v c => (writeWord_evolvesFrom _ v _ c).bind fun _ c =>
      evolvesFrom_ok (finish_evolves _ _ c)).outcome h
  | movdLoad d p r =>
    exact ((readPair_evolvesFrom _ _ _).bind fun v c =>
      evolvesFrom_ok ((writePairRegs_evolves d v.1 v.2 c).trans (finish_evolves _ _ _))).outcome h
  | movdStore q d k =>
    exact ((writePair_evolvesFrom _ _ _ _ _).bind fun _ c => evolvesFrom_ok (finish_evolves _ _ c)).outcome h
  | btscF bit f | btssF bit f =>
    exact ((readWord_evolvesFrom _ _ _).bind fun _ c =>
      evolvesFrom_ok ((skipIf_evolves _ c).trans (retire_evolves _ _ _))).outcome h
  | btscW bit p r | btssW bit p r =>
    exact ((readOperand_evolvesFrom _ _ _).bind fun _ c =>
      evolvesFrom_ok ((skipIf_evolves _ c).trans (retire_evolves _ _ _))).outcome h
  | divS t v w r | divU t v w r | divF t r => exact divideStep_evolves h

theorem restoreFrame_keeps (hi lo : Word) (s : State) : Keeps s (restoreFrame hi lo s) := by
  have hcorcon : Keeps s { s with corcon := setBit s.corcon 3 (hi.getLsbD 7) } :=
    keeps_corcon (setBit_and_of_outside _ _ _ (by decide))
  have hpc : Evolves { s with corcon := setBit s.corcon 3 (hi.getLsbD 7) }
      { s with corcon := setBit s.corcon 3 (hi.getLsbD 7), pc := frameAddress hi lo } :=
    evolves_pc fun _ => getLsbD_append_zero _
  exact (hcorcon.trans hpc.toKeeps).trans (Evolves.of_frame rfl).toKeeps

/-- RETFIE takes IPL3 from the frame (R152), and keeps all else that an instruction keeps. -/
theorem execRetfie_keeps {s t : State} (h : execRetfie s = .next t) : Keeps s t ∨ ResetFrom s t := by
  refine outcome_sat (P := fun t => Keeps s t ∨ ResetFrom s t) h (sat_mono (P := fun _ c => Keeps s c.st)
    (sat_bind (pop16_evolvesFrom (start s)) fun hi c hc => sat_bind ((pop16_evolvesFrom c).after hc) fun lo c hc => ?_)
    (fun _ _ => .inl) fun _ => .inr)
  have hrestore : Keeps c.st (c.update (restoreFrame hi lo)).st := restoreFrame_keeps hi lo c.st
  exact (hc.toKeeps.trans hrestore).trans (retire_evolves _ _ _).toKeeps

/-! ### Entries, events, steps -/

/-- What entry of a candidate can end in: the pushes made, then the priority and the vector; or a Reset from a push (R237, R246). -/
theorem takeException_cases {cand : Candidate} {s t : State} (h : takeException cand s = .next t) :
    (∃ u, Evolves s u ∧ t = { loadVector cand (enterPriority cand (s.candidateLevel cand) u) with
      acceptAge := 0, disicnt := countDown 4 u.disicnt }) ∨ ResetFrom s t := by
  have hbuffer : Evolves s { s with bufferPc := s.pc, bufferSrl := s.srl } := .of_frame rfl
  have hpush := (push16_evolvesFrom (s.pc.extractLsb' 0 16) (start { s with bufferPc := s.pc, bufferSrl := s.srl })).after hbuffer
  refine (outcome_next (P := fun _ c => ∃ u, Evolves s u ∧ c.st = { loadVector cand
    (enterPriority cand (s.candidateLevel cand) u) with acceptAge := 0, disicnt := countDown 4 u.disicnt }) ?_ h).imp_left
      fun ⟨_, ⟨u, hu, hc⟩, ht⟩ => ⟨u, hu, ht.trans hc⟩
  exact sat_bind hpush fun _ c hc => sat_bind ((push16_evolvesFrom _ c).after hc) fun _ c hc => ⟨c.st, hc, rfl⟩

theorem loadVector_evolves (cand : Candidate) (s : State) : Evolves s (loadVector cand s) :=
  evolves_pc fun _ => getLsbD_append_zero _

/-- Entry of an interrupt leaves IPL3 as it is (R240). -/
theorem enterPriority_irq_evolves (i level : Nat) (s : State) : Evolves s (enterPriority (.irq i) level s) := .of_frame rfl

/-- Entry of a trap sets IPL3 (R239); either entry keeps what every part of a step keeps. -/
theorem enterPriority_keeps (cand : Candidate) (level : Nat) (s : State) : Keeps s (enterPriority cand level s) := by
  cases cand with
  | trap t =>
    have hcorcon : Keeps s { s with corcon := setBit s.corcon 3 true } :=
      keeps_corcon (setBit_and_of_outside _ _ _ (by decide))
    exact hcorcon.trans (Evolves.of_frame rfl).toKeeps
  | irq i => exact (enterPriority_irq_evolves i level s).toKeeps

theorem takeException_keeps {cand : Candidate} {s t : State} (h : takeException cand s = .next t) :
    Keeps s t ∨ ResetFrom s t := by
  refine (takeException_cases h).imp_left fun ⟨u, hu, ht⟩ => ht ▸ ?_
  exact ((hu.toKeeps.trans (enterPriority_keeps cand _ u)).trans (loadVector_evolves _ _).toKeeps).trans
    (Evolves.of_frame rfl).toKeeps

theorem takeException_irq_evolves {i : Nat} {s t : State} (h : takeException (.irq i) s = .next t) :
    Evolves s t ∨ ResetFrom s t := by
  refine (takeException_cases h).imp_left fun ⟨u, hu, ht⟩ => ht ▸ ?_
  exact ((hu.trans (enterPriority_irq_evolves i _ u)).trans (loadVector_evolves _ _)).trans (.of_frame rfl)

/-- A request touches no unimplemented bit of IFS2: the device has no source above 44 (R4, R230). -/
theorem requestIrq_evolves (s : State) (i : Nat) : Evolves s (s.requestIrq i) := by
  unfold State.requestIrq
  split
  next hpresent =>
    have hi : i / 16 < 3 := by have := lt_of_irqPresent hpresent; omega
    have hget : s.ifs[i / 16]?.getD 0 = s.ifs.get ⟨i / 16, hi⟩ := by simp [Vector.get_eq_getElem, hi]
    have hset : ∀ x, s.ifs.setIfInBounds (i / 16) x = s.ifs.set (i / 16) x := fun x => by
      simp [Vector.setIfInBounds, Vector.set, Array.setIfInBounds, hi]
    rw [hget, hset]
    refine evolves_ifs (get_set_and (k := ⟨i / 16, hi⟩) fun hk => setBit_and_of_outside _ _ _ ?_)
    have hk : i / 16 = 2 := congrArg Fin.val hk
    have hbits : ∀ n < 13, (0xE000 : Word).getLsbD n = false := by decide
    exact hbits _ (by have := lt_of_irqPresent hpresent; omega)
  · exact .refl s

theorem samplePin_evolves (s : State) (k : Fin 5) (level : Bool) : Evolves s (s.samplePin k level) := by
  rw [samplePin_eq]
  split
  · exact (requestIrq_evolves s _).trans (.of_frame rfl)
  · exact .of_frame rfl

theorem deliver_evolves (s : State) (e : InputEvent) : Evolves s (s.deliver e) ∨ ResetFrom s (s.deliver e) := by
  cases e with
  | peripheral i => exact .inl (requestIrq_evolves s i)
  | pin k level => exact .inl (samplePin_evolves s k level)
  | oscFail cause =>
    have hcf : Evolves s { s with cf := true } := .of_frame rfl
    simp only [State.deliver]
    split
    · exact (raiseTrap_cases _ _).imp (fun he => hcf.trans he) fun hr => hcf.toKeeps.resetFrom hr
    · exact .inl (.refl s)
  | externalReset => exact .inr (resetFrom_deviceReset _ _)

theorem loopLive_loop {s : State} {l : RepeatLoop} (h : s.loopLive = some l) : s.loop = some l := by
  unfold State.loopLive at h
  split at h
  next l' hl =>
    split at h
    · rwa [h] at hl
    · cases h
  · cases h

/-- A device Reset drops the REPEAT loop, so the loop's rule leaves its state as it is (log 6). -/
theorem continueLoop_of_loop_none (s : State) {t : State} (h : t.loop = none) : continueLoop s t = t := by
  unfold continueLoop
  split
  · rfl
  · rw [h, if_neg nofun]

theorem continueLoop_corcon (s t : State) : (continueLoop s t).corcon = t.corcon := by
  rcases continueLoop_cases s t with h | h | ⟨l, -, h⟩ <;> rw [h]

/-- The PC that the loop's rule sets is the target of the loop that was live, an even address (R21). -/
theorem continueLoop_keeps {s t : State} (h : Keeps s t) : Keeps s (continueLoop s t) := by
  rcases continueLoop_cases s t with hc | hc | ⟨l, hl, hc⟩ <;> rw [hc]
  · exact h
  · exact h.trans (evolves_loop (o := none) fun _ _ hnone => nomatch hnone).toKeeps
  · refine ⟨h.prog, h.device, h.inputs, h.armed, fun hs => ?_⟩
    obtain ⟨-, ⟨-, hloop⟩, -⟩ := id hs
    have heven : l.target.getLsbD 0 = false := hloop l (loopLive_loop hl)
    obtain ⟨hreserved, -, hmem⟩ := h.inv hs
    exact ⟨hreserved, ⟨heven, fun l' hl' => Option.some.inj hl' ▸ heven⟩, hmem⟩

theorem continueLoop_evolves {s t : State} (h : Evolves s t) : Evolves s (continueLoop s t) where
  toKeeps := continueLoop_keeps h.toKeeps
  ipl3 h3 := (congrArg (·.getLsbD 3) (continueLoop_corcon s t)).trans (h.ipl3 h3)

theorem continueLoop_resetFrom {s t : State} (h : ResetFrom s t) : ResetFrom s (continueLoop s t) := by
  have hloop : t.loop = none := by
    obtain ⟨cause, u, rfl, -⟩ := h
    rfl
  rwa [continueLoop_of_loop_none s hloop]

theorem afterIteration_next {s t : State} {o : Host.Outcome State Fault Refusal} (h : afterIteration s o = .next t) :
    ∃ u, o = .next u ∧ t = continueLoop s u := by
  cases o with
  | next u => exact ⟨u, rfl, (Host.Outcome.next.inj h).symm⟩
  | fault e => cases h
  | refused r => cases h

/-- What the instruction at the PC can end in: only RETFIE may set IPL3. -/
theorem runInstruction_cases {s t : State} (h : runInstruction s = .next t) :
    (Evolves s t ∨ ResetFrom s t) ∨ (Keeps s t ∧ s.fetch = .next .retfie) := by
  unfold runInstruction at h
  split at h
  · split at h
    next i hfetch =>
      obtain ⟨u, hu, rfl⟩ := afterIteration_next h
      by_cases hi : i = .retfie
      · subst hi
        rcases execRetfie_keeps hu with hk | hr
        · exact .inr ⟨continueLoop_keeps hk, hfetch⟩
        · exact .inl (.inr (continueLoop_resetFrom hr))
      · exact .inl ((exec_evolves hi hu).imp continueLoop_evolves continueLoop_resetFrom)
    · cases h
    · cases h
  · exact .inl (Host.Outcome.next.inj h ▸ raiseTrap_cases s .addrErr)

/-- A trap's entry or a RETFIE: the two steps that may set IPL3. -/
def State.setsIpl3 (s : State) : Prop :=
  (∃ τ u, s.decision = .enter (.trap τ) u) ∨ ∃ s1, s.decision = .run s1 ∧ s1.fetch = .next .retfie

/-- What the machine's own step can end in. -/
theorem machineStep_cases {s t : State} (h : machineStep s = .next t) :
    (Evolves s t ∨ ResetFrom s t) ∨ (Keeps s t ∧ s.setsIpl3) := by
  unfold machineStep at h
  split at h
  · exact .inl (Host.Outcome.next.inj h ▸ .inl (.refl s))
  · exact .inl (Host.Outcome.next.inj h ▸ .inl (.of_frame rfl))
  next cand u hd =>
    have hu : Evolves s u := by
      obtain ⟨-, -, hu | hu⟩ := decision_enter hd <;> rw [hu] <;> exact .of_frame rfl
    cases cand with
    | trap τ =>
      rcases takeException_keeps h with hk | hr
      · exact .inr ⟨hu.toKeeps.trans hk, .inl ⟨τ, u, hd⟩⟩
      · exact .inl (.inr (hu.toKeeps.resetFrom hr))
    | irq i => exact .inl ((takeException_irq_evolves h).imp hu.trans hu.toKeeps.resetFrom)
  next u hd =>
    have hu : Evolves s u := by
      obtain ⟨-, ⟨-, hu⟩ | ⟨-, -, -, hu⟩⟩ := decision_run hd <;> rw [hu] <;> exact .of_frame rfl
    rcases runInstruction_cases h with he | ⟨hk, hfetch⟩
    · exact .inl (he.imp hu.trans hu.toKeeps.resetFrom)
    · exact .inr ⟨hu.toKeeps.trans hk, .inr ⟨u, hd, hfetch⟩⟩

/-- Every step, from the state with the schedule's head passed: it keeps the invariant and sets no IPL3, or resets the device, or is the
entry of a trap or a RETFIE. -/
theorem step_evolves {s t : State} (h : step s = .next t) :
    (Evolves s.onward t ∨ ResetFrom s.onward t) ∨ (Keeps s.onward t ∧ s.quiet ∧ s.onward.setsIpl3) := by
  rcases step_cases s with ⟨e, rest, hin, hstep⟩ | ⟨hquiet, hstep⟩
  · have hrest : ({ s with inputs := rest } : State) = s.onward := by simp [State.onward, hin]
    rw [hrest, h] at hstep
    exact .inl (Host.Outcome.next.inj hstep ▸ deliver_evolves s.onward e)
  · exact (machineStep_cases (s := s.onward) (hstep ▸ h)).imp_right fun ⟨hk, hset⟩ => ⟨hk, hquiet, hset⟩

theorem step_keeps {s t : State} (h : step s = .next t) : Keeps s.onward t ∨ ResetFrom s.onward t := by
  rcases step_evolves h with (he | hr) | ⟨hk, -⟩
  · exact .inl he.toKeeps
  · exact .inr hr
  · exact .inl hk

/-- Settles O8: each part of a step keeps the invariant, and a device Reset establishes it. -/
theorem stepKeepsInvariant : Obligations.StepKeepsInvariant := by
  intro s t hs h
  have hon : s.onward.Inv := hs
  rcases step_keeps h with hk | hr
  · exact hk.inv hon
  · exact hr.inv hon

/-- Settles O10. -/
theorem onlyTrapEntryAndRetfieSetIpl3 : Obligations.OnlyTrapEntryAndRetfieSetIpl3 := by
  refine ⟨fun i s t hi h h3 => ?_, fun s t h h3 ht3 => ?_⟩
  · rcases exec_evolves hi h with he | hr
    · exact he.ipl3 h3
    · exact hr.ipl3
  · rcases step_evolves h with (he | hr) | ⟨-, hquiet, hset⟩
    · exact absurd (he.ipl3 h3) (by simp [ht3])
    · exact absurd hr.ipl3 (by simp [ht3])
    · exact ⟨hquiet, hset⟩

/-! ### Enables, priorities and the arming of the limit -/

/-- No enable, no priority field and not the arming of the stack limit differ (R39, R52, R58). -/
def EnablesKept (s t : State) : Prop := t.iec = s.iec ∧ t.ipc = s.ipc ∧ t.splimArmed = s.splimArmed

/-- An event that does not reset the device touches the flags of its own source and trap only (R225, R230, R252). -/
theorem deliver_enablesKept {s : State} {e : InputEvent} (he : e ≠ .externalReset)
    (hosc : ∀ c, e = .oscFail c → s.conflicts .oscFail = false) : EnablesKept s (s.deliver e) := by
  cases e with
  | peripheral i => exact ⟨requestIrq_iec s i, requestIrq_ipc s i, requestIrq_splimArmed s i⟩
  | pin k level =>
    show EnablesKept s (s.samplePin k level)
    rw [samplePin_frame]
    exact ⟨rfl, rfl, rfl⟩
  | oscFail cause =>
    have hconflict : ({ s with cf := true } : State).conflicts .oscFail = false := hosc cause rfl
    simp only [State.deliver, State.raiseTrap, hconflict]
    split <;> exact ⟨rfl, rfl, rfl⟩
  | externalReset => exact absurd rfl he

/-- All that a push into data memory can change: W15, data memory, and flags of INTCON1 other than OSCFAIL. -/
def PushTouches (s t : State) : Prop :=
  ∃ w data v, v.getLsbD 1 = s.intcon1.getLsbD 1 ∧ t = { s with w := w, data := data, intcon1 := v }

theorem PushTouches.refl (s : State) : PushTouches s s := ⟨s.w, s.data, s.intcon1, rfl, rfl⟩

theorem PushTouches.trans {s t u : State} (hst : PushTouches s t) (htu : PushTouches t u) : PushTouches s u := by
  obtain ⟨w, data, v, hv, rfl⟩ := hst
  obtain ⟨w', data', v', hv', rfl⟩ := htu
  exact ⟨w', data', v', hv'.trans hv, rfl⟩

theorem PushTouches.enablesKept {s t : State} (h : PushTouches s t) : EnablesKept s t := by
  obtain ⟨w, data, v, -, rfl⟩ := h
  exact ⟨rfl, rfl, rfl⟩

/-- The conflict of an address error: the CPU priority at 13 or above, or an oscillator failure pending (R228). -/
theorem conflicts_addrErr (s : State) : s.conflicts .addrErr =
    (decide (13 ≤ s.cpuIpl) || (s.trapFlag .oscFail && decide (s.cpuIpl < 14))) := by
  have hhard : Trap.addrErr.hard = true := rfl
  have hosc : decide (Trap.addrErr.level < Trap.oscFail.level) = true := rfl
  have hsame : decide (Trap.addrErr.level < Trap.addrErr.level) = false := rfl
  have hstk : decide (Trap.addrErr.level < Trap.stkErr.level) = false := rfl
  have hmath : decide (Trap.addrErr.level < Trap.mathErr.level) = false := rfl
  simp only [State.conflicts, State.hardConflict, List.any_cons, List.any_nil, hhard, hosc, hsame, hstk, hmath, Bool.true_and,
    Bool.false_and, Bool.or_false]
  rfl

/-- So a push into data memory changes nothing about the conflict of an address error. -/
theorem PushTouches.conflicts {s t : State} (h : PushTouches s t) : t.conflicts .addrErr = s.conflicts .addrErr := by
  obtain ⟨w, data, v, hv, rfl⟩ := h
  have hosc : ({ s with w := w, data := data, intcon1 := v } : State).trapFlag .oscFail = s.trapFlag .oscFail := hv
  rw [conflicts_addrErr, conflicts_addrErr, hosc]
  rfl

theorem pushTouches_flagTrap (s : State) {t : Trap} (h : t ≠ .oscFail) : PushTouches s (s.flagTrap t) := by
  refine ⟨s.w, s.data, setBit s.intcon1 t.flagBit true, ?_, rfl⟩
  rw [getLsbD_setBit, if_neg]
  rintro ⟨hbit, -⟩
  cases t <;> simp_all [Trap.flagBit]

/-- A word write at or above 0x0800, whatever its checks find, if it does not conflict: no register is met. -/
theorem writeWord_data {ea v : Word} {b : Bool} {c : Cpu} {Q : State → Prop} (hlo : 0x0800 ≤ ea.toNat)
    (hodd : ea.getLsbD 0 = true → c.st.conflicts .addrErr = false) :
    (writeWord ea v b c).Sat (fun _ c' => PushTouches c.st c'.st ∧ c'.st.w = c.st.w) Q := by
  have hlimit : PushTouches c.st (stackLimit b ea c).st ∧ (stackLimit b ea c).st.w = c.st.w := by
    rcases stackLimit_cases b ea c with h | h <;> rw [h]
    · exact ⟨.refl _, rfl⟩
    · exact ⟨pushTouches_flagTrap _ nofun, rfl⟩
  obtain ⟨htouch, hw⟩ := hlimit
  unfold writeWord
  dsimp only
  split
  next h =>
    have hconflict := htouch.conflicts.trans (hodd h)
    exact addressError_sat _ (fun _ => ⟨htouch.trans (pushTouches_flagTrap _ nofun), hw⟩) fun h => by simp [hconflict] at h
  split
  · exact ⟨htouch, hw⟩
  rw [if_neg (not_lt_0800 hlo)]
  split
  · exact ⟨htouch.trans ⟨_, _, _, rfl, rfl⟩, hw⟩
  · exact ⟨htouch, hw⟩

theorem pointerAdd_fst (r : WReg) (d : Int) (c : Cpu) : (pointerAdd r d c).1 = c.st.getW r + BitVec.ofInt 16 d := by
  simp [pointerAdd, BitVec.ofInt_add]

/-- A push at or above 0x0800, whatever its checks find, if it does not conflict. -/
theorem push16_data {v : Word} {c : Cpu} {Q : State → Prop} (hlo : 0x0800 ≤ (c.st.getW 15).toNat)
    (hodd : (c.st.getW 15).getLsbD 0 = true → c.st.conflicts .addrErr = false) :
    (push16 v c).Sat (fun _ c' => PushTouches c.st c'.st ∧ c'.st.getW 15 = c.st.getW 15 + 2) Q := by
  refine sat_bind (writeWord_data hlo hodd) fun _ c1 ⟨htouch, hw⟩ => ?_
  have hsum : (pointerAdd 15 2 c1).1 = c.st.getW 15 + 2 := by
    rw [pointerAdd_fst, State.getW, hw]
    rfl
  have hadd : PushTouches c1.st (pointerAdd 15 2 c1).2.st := by
    rcases pointerAdd_cases 15 2 c1 with h | h <;> rw [h]
    · exact .refl _
    · exact pushTouches_flagTrap _ nofun
  have hput : PushTouches (pointerAdd 15 2 c1).2.st ((pointerAdd 15 2 c1).2.st.putW 15 (c.st.getW 15 + 2)) := ⟨_, _, _, rfl, rfl⟩
  rw [hsum, sat_ok]
  rcases writeW_cases 15 (c.st.getW 15 + 2) (pointerAdd 15 2 c1).2 with h | h <;> rw [h]
  · exact ⟨(htouch.trans hadd).trans hput, getW_putW_same _ _ _⟩
  · exact ⟨((htouch.trans hadd).trans hput).trans (pushTouches_flagTrap _ nofun), getW_putW_same _ _ _⟩

theorem odd_of_odd_add_two {v : Word} (h : (v + 2).getLsbD 0 = true) : v.getLsbD 0 = true := by
  by_contra heven
  exact Bool.false_ne_true ((even_add_two (Bool.eq_false_of_not_eq_true heven)).symm.trans h)

/-- Entry whose frame lies in data memory, whatever the stack's checks find, if it does not conflict (R237, R246). -/
theorem takeException_enablesKept {cand : Candidate} {s t : State} (h : takeException cand s = .next t)
    (hlo : 0x0800 ≤ (s.getW 15).toNat) (hhi : (s.getW 15).toNat + 2 < 0x10000)
    (hodd : (s.getW 15).getLsbD 0 = true → s.conflicts .addrErr = false) : EnablesKept s t := by
  refine outcome_sat h (sat_bind (push16_data (c := start { s with bufferPc := s.pc, bufferSrl := s.srl }) hlo hodd)
    fun _ c1 ⟨htouch1, hw⟩ => ?_)
  have hw : c1.st.getW 15 = s.getW 15 + 2 := hw
  refine sat_bind (push16_data (c := c1) ?_ ?_) fun _ c2 ⟨htouch2, _⟩ => ?_
  · rw [hw, toNat_add_two hhi]
    omega
  · rw [hw, htouch1.conflicts]
    exact fun hset => hodd (odd_of_odd_add_two hset)
  · have hboth : EnablesKept s c2.st := (htouch1.trans htouch2).enablesKept
    cases cand <;> exact hboth

theorem step_of_event {s : State} {e : InputEvent} {rest : List (Option InputEvent)} (h : s.inputs = some e :: rest) :
    step s = .next (({ s with inputs := rest } : State).deliver e) := by
  simp only [step, h]

theorem step_of_enter {s u : State} {cand : Candidate} (hquiet : s.quiet) (hd : s.onward.decision = .enter cand u) :
    step s = takeException cand u := by
  rcases step_cases s with ⟨e, rest, hin, -⟩ | ⟨-, hstep⟩
  · simp [State.quiet, hin] at hquiet
  · rw [hstep]
    unfold machineStep
    rw [show ({ s with inputs := s.inputs.tail } : State).decision = .enter cand u from hd]

/-- Settles O11. -/
theorem eventsAndEntriesKeepEnables : Obligations.EventsAndEntriesKeepEnables := by
  refine ⟨fun s t e rest hin he hosc h => ?_, fun s t u cand hquiet hd hlo hhi hodd h => ?_, fun s t h harmed hdisarmed => ?_⟩
  · rw [step_of_event hin] at h
    have hkept : EnablesKept s (({ s with inputs := rest } : State).deliver e) := deliver_enablesKept he hosc
    exact Host.Outcome.next.inj h ▸ hkept
  · rw [step_of_enter hquiet hd] at h
    have hkept : EnablesKept u t := by
      obtain ⟨-, -, rfl | rfl⟩ := decision_enter hd <;> exact takeException_enablesKept h hlo hhi hodd
    obtain ⟨-, -, rfl | rfl⟩ := decision_enter hd <;> exact hkept
  · rcases step_keeps h with hk | hr
    · exact absurd (hk.armed harmed) (by simp [hdisarmed])
    · exact hr

end Sys2Proof.Machine
end

section
/-! PROOFS. Which register stands at which address, and what an access that meets none is answered. -/

namespace Sys2Proof.Machine

/-! ### The register map -/

/-- Table 6-3's registers stand at their addresses whatever the device puts elsewhere (R64). -/
theorem regAt_of_tableReg (d : Device) {a : Nat} {r : Reg} (h : tableReg a = some r) : regAt d a = some r := by
  simp only [regAt, h]

theorem tableReg_ifs : ∀ k : Fin 3, tableReg (0x0084 + 2 * k) = some (.ifs k) := by decide
theorem tableReg_iec : ∀ k : Fin 3, tableReg (0x008C + 2 * k) = some (.iec k) := by decide
theorem tableReg_ipc : ∀ k : Fin 12, tableReg (0x0094 + 2 * k) = some (.ipc k) := by decide

/-- The working registers of the device of Reset, from address 0 on (R20). -/
theorem regAt_default_w : ∀ r : WReg, regAt Device.default (2 * r.toNat) = some (.w r) := by decide

/-! ### Accesses that meet no register -/

theorem lt_0800 {ea : Word} (h : ea.toNat < 0x0800) : ea < 0x0800 := BitVec.lt_def.2 h

theorem stackLimit_device (b : Bool) (ea : Word) (c : Cpu) : (stackLimit b ea c).st.device = c.st.device :=
  (stackLimit_evolves b ea c).device

theorem stackLimit_inhibit (b : Bool) (ea : Word) (c : Cpu) : (stackLimit b ea c).inhibit = c.inhibit := by
  rcases stackLimit_cases b ea c with h | h <;> rw [h]
  rfl

theorem pointerAdd_inhibit (r : WReg) (d : Int) (c : Cpu) : (pointerAdd r d c).2.inhibit = c.inhibit := by
  rcases pointerAdd_cases r d c with h | h <;> rw [h]
  rfl

theorem writeW_inhibit (r : WReg) (v : Word) (c : Cpu) : (writeW r v c).inhibit = c.inhibit := by
  rcases writeW_cases r v c with h | h <;> rw [h] <;> rfl

/-- A pointer's modification raises no address error. -/
theorem pointer_inhibit (m : AddrMode) (r : WReg) (size : Int) (c : Cpu) : (pointer m r size c).2.inhibit = c.inhibit := by
  cases m with
  | direct | indirect | unused6 | unused7 => rfl
  | postDec | postInc | preDec | preInc => exact (writeW_inhibit _ _ _).trans (pointerAdd_inhibit _ _ c)

/-- A word read below 0x0800 that meets no register is refused (U10, R64), whatever the stack limit check finds. -/
theorem readWord_unlisted {ea : Word} {b : Bool} {c : Cpu} (heven : ea.getLsbD 0 = false) (hlo : ea.toNat < 0x0800)
    (hreg : regAt c.st.device ea.toNat = none) : readWord ea b c = .stop .unlistedRegister := by
  simp only [readWord, heven, Bool.false_eq_true, if_false, if_pos (lt_0800 hlo), stackLimit_device, hreg]

/-- A word write below 0x0800 that meets no register is refused (U10, R64), whatever the stack limit check finds. -/
theorem writeWord_unlisted {ea v : Word} {b : Bool} {c : Cpu} (heven : ea.getLsbD 0 = false) (hlo : ea.toNat < 0x0800)
    (hreg : regAt c.st.device ea.toNat = none) (hin : c.inhibit = false) :
    writeWord ea v b c = .stop .unlistedRegister := by
  simp only [writeWord, heven, Bool.false_eq_true, if_false, if_pos (lt_0800 hlo), stackLimit_device, stackLimit_inhibit, hin, hreg]

/-- So is a push where W15 stands at such an address. -/
theorem push16_unlisted {v : Word} {c : Cpu} (heven : (c.st.getW 15).getLsbD 0 = false) (hlo : (c.st.getW 15).toNat < 0x0800)
    (hreg : regAt c.st.device (c.st.getW 15).toNat = none) (hin : c.inhibit = false) :
    push16 v c = .stop .unlistedRegister := by
  rw [push16, writeWord_unlisted heven hlo hreg hin, bind_stop]

/-- A software read of a register draws a free value for RCON and OSCCON alone (log 18). -/
theorem readReg_start (r : Reg) (s : State) :
    (readReg r (start s)).2 = start { s with draws := s.draws + if r = .rcon ∨ r = .osccon then 1 else 0 } := by
  cases r <;> rfl

/-- The read of a word that can be read without a check failing. -/
theorem readWord_readable {s : State} {ea v : Word} {d : Nat} (h : s.readableAs ea v d) :
    readWord ea false (start s) = .ok v (start { s with draws := s.draws + d }) := by
  rcases h with ⟨heven, hlo, himp, rfl, rfl⟩ | ⟨heven, hlo, r, hreg, rfl, rfl⟩
  · exact readWord_ram heven hlo himp fun hb => nomatch hb
  · rw [← readReg_start]
    exact readWord_reg heven hlo hreg fun hb => nomatch hb

/-! ### Instructions and entries that meet no register -/

theorem exec_push_unlisted {s : State} {f : BitVec 15} (hlo : (f ++ 0#1).toNat < 0x0800)
    (hreg : regAt s.device (f ++ 0#1).toNat = none) : exec (.push f) s = .refused .unlistedRegister := by
  show execPush f s = _
  rw [execPush, fileAddress, readWord_unlisted (getLsbD_append_zero f) hlo hreg]
  rfl

/-- POP of a word the stack holds: what is left of it is the write (R182). -/
theorem exec_pop_holds {s : State} {f : BitVec 15} (hstack : s.stackHolds 1) :
    exec (.pop f) s = ((writeWord (fileAddress f) (s.dataWord (s.getW 15 - 2)) false (start (s.putW 15 (s.getW 15 - 2)))).bind
      fun _ c => .ok () (retire (.pop f) s (advance 1 c))).outcome := by
  obtain ⟨heven, hhi, himp, hlim⟩ := hstack
  show execPop f s = _
  rw [execPop, pop16_holds (c := start s) heven hhi (himp 0 (by omega)) hlim]
  rfl

theorem exec_pop_unlisted {s : State} {f : BitVec 15} (hlo : (f ++ 0#1).toNat < 0x0800)
    (hreg : regAt s.device (f ++ 0#1).toNat = none) (hstack : s.stackHolds 1) :
    exec (.pop f) s = .refused .unlistedRegister := by
  rw [exec_pop_holds hstack, fileAddress,
    writeWord_unlisted (c := start (s.putW 15 (s.getW 15 - 2))) (getLsbD_append_zero f) hlo hreg rfl]
  rfl

theorem exec_push_stack_unlisted {s : State} {f : BitVec 15} {v : Word} {e : Nat} (heven : (s.getW 15).getLsbD 0 = false)
    (hlo : (s.getW 15).toNat < 0x0800) (hreg : regAt s.device (s.getW 15).toNat = none) (hread : s.readableAs (f ++ 0#1) v e) :
    exec (.push f) s = .refused .unlistedRegister := by
  show execPush f s = _
  rw [execPush, fileAddress, readWord_readable hread, bind_ok,
    push16_unlisted (c := start { s with draws := s.draws + e }) heven hlo hreg rfl]
  rfl

theorem takeException_unlisted {s : State} (cand : Candidate) (heven : (s.getW 15).getLsbD 0 = false)
    (hlo : (s.getW 15).toNat < 0x0800) (hreg : regAt s.device (s.getW 15).toNat = none) :
    takeException cand s = .refused .unlistedRegister := by
  rw [takeException, push16_unlisted (c := start { s with bufferPc := s.pc, bufferSrl := s.srl }) heven hlo hreg rfl]
  rfl

theorem testFile_unlisted {s : State} {i : Instr} {want : Bool} {bit : BitVec 4} {f : BitVec 12}
    (hlo : (bitFileAddress f).toNat < 0x0800) (hreg : regAt s.device (bitFileAddress f).toNat = none) :
    testFile i want bit f s = .refused .unlistedRegister := by
  rw [testFile, readWord_unlisted (ea := bitFileAddress f) (getLsbD_append_zero _) hlo hreg]
  rfl

/-- An operand through a pointer is one word access at the pointer's address. -/
theorem readOperand_indirect {m : AddrMode} (hm : m.isIndirect = true) (r : WReg) (c : Cpu) :
    readOperand m r c = readWord (pointer m r 2 c).1 (decide (r = 15)) (pointer m r 2 c).2 := by
  cases m with
  | direct | unused6 | unused7 => cases hm
  | indirect | postDec | postInc | preDec | preInc => rfl

theorem readPair_indirect {m : AddrMode} (hm : m.isIndirect = true) (r : WReg) (c : Cpu) :
    readPair m r c = readDouble (pointer m r 4 c).1 (decide (r = 15)) (pointer m r 4 c).2 := by
  cases m with
  | direct | unused6 | unused7 => cases hm
  | indirect | postDec | postInc | preDec | preInc => rfl

theorem writePair_indirect {m : AddrMode} (hm : m.isIndirect = true) (r : WReg) (lo hi : Word) (c : Cpu) :
    writePair m r lo hi c = writeDouble (pointer m r 4 c).1 lo hi (decide (r = 15)) (pointer m r 4 c).2 := by
  cases m with
  | direct | unused6 | unused7 => cases hm
  | indirect | postDec | postInc | preDec | preInc => rfl

section
variable {s : State} {m : AddrMode} {r : WReg} {size : Int} (hm : m.isIndirect = true)

theorem regAt_pointer {a : Nat} (h : regAt s.device a = none) : regAt (pointer m r size (start s)).2.st.device a = none := by
  rwa [(pointer_evolves m r size (start s)).device]

include hm

theorem testOperand_unlisted {i : Instr} {want : Bool} {bit : BitVec 4} (heven : (pointer m r 2 (start s)).1.getLsbD 0 = false)
    (hlo : (pointer m r 2 (start s)).1.toNat < 0x0800) (hreg : regAt s.device (pointer m r 2 (start s)).1.toNat = none) :
    testOperand i want bit m r s = .refused .unlistedRegister := by
  rw [testOperand, readOperand_indirect hm, readWord_unlisted heven hlo (regAt_pointer hreg)]
  rfl

theorem execMovdLoad_unlisted {k : BitVec 3} (heven : (pointer m r 4 (start s)).1.getLsbD 0 = false)
    (hlo : (pointer m r 4 (start s)).1.toNat < 0x0800) (hreg : regAt s.device (pointer m r 4 (start s)).1.toNat = none) :
    execMovdLoad k m r s = .refused .unlistedRegister := by
  rw [execMovdLoad, readPair_indirect hm, readDouble, readWord_unlisted heven hlo (regAt_pointer hreg)]
  rfl

theorem execMovdStore_unlisted {k : BitVec 3} (heven : (pointer m r 4 (start s)).1.getLsbD 0 = false)
    (hlo : (pointer m r 4 (start s)).1.toNat < 0x0800) (hreg : regAt s.device (pointer m r 4 (start s)).1.toNat = none) :
    execMovdStore m r k s = .refused .unlistedRegister := by
  rw [execMovdStore, writePair_indirect hm, writeDouble,
    writeWord_unlisted heven hlo (regAt_pointer hreg) (pointer_inhibit m r 4 (start s))]
  rfl

end

/-- Settles O57: the table by evaluation, the refusals access by access. -/
theorem registerMapFollowsTheTable : Obligations.RegisterMapFollowsTheTable := by
  refine ⟨fun d => ⟨rfl, rfl, fun k => ⟨regAt_of_tableReg d (tableReg_ifs k), regAt_of_tableReg d (tableReg_iec k)⟩,
    fun k => regAt_of_tableReg d (tableReg_ipc k)⟩, fun d hd => ?_, fun s => ⟨fun f hlo hreg => ?_, fun heven hlo hreg => ?_,
    fun bit f hlo hreg => ?_, fun m r bit hm => ?_, fun m r k hm => ?_⟩⟩
  · subst hd
    exact ⟨by decide, by decide, by decide, by decide, by decide, by decide, regAt_default_w, by decide, by decide⟩
  · exact ⟨exec_push_unlisted hlo hreg, exec_pop_unlisted hlo hreg⟩
  · exact ⟨fun f v e hread => exec_push_stack_unlisted heven hlo hreg hread,
      fun cand => takeException_unlisted cand heven hlo hreg⟩
  · exact ⟨testFile_unlisted hlo hreg, testFile_unlisted hlo hreg⟩
  · exact fun heven hlo hreg => ⟨testOperand_unlisted hm heven hlo hreg, testOperand_unlisted hm heven hlo hreg⟩
  · exact fun heven hlo hreg => ⟨execMovdLoad_unlisted hm heven hlo hreg, execMovdStore_unlisted hm heven hlo hreg⟩

end Sys2Proof.Machine
end

section
/-! PROOFS. POP INTCON1: the enables, the clears, the requested traps and their conflicts. -/

namespace Sys2Proof.Machine

/-! ### The end of an instruction that has not written DISICNT -/

/-- The count-down as the statements write it (R151). -/
theorem countDown_eq (n : Nat) (cnt : BitVec 14) : countDown n cnt = BitVec.ofNat 14 (cnt.toNat - n) := by
  have hlt := cnt.isLt
  apply BitVec.eq_of_toNat_eq
  rw [countDown_toNat, BitVec.toNat_ofNat, Nat.mod_eq_of_lt (by omega)]

/-- The PC moved past `words` words, inside program space or past its end (R21, N12). -/
theorem advance_pcPast (words : Nat) (c : Cpu) : ∃ p d, c.st.pcPast words p d ∧
    advance words c = c.update fun s => { s with pc := p, draws := s.draws + d } := by
  by_cases hin : c.st.pc.toNat + 2 * words < 2 ^ 23
  · refine ⟨c.st.pc + BitVec.ofNat 23 (2 * words), 0, ?_, ?_⟩
    · rw [State.pcPast, if_pos hin]
      exact ⟨rfl, rfl⟩
    · have hcast : (c.st.pc.toNat : Int) + 2 * (words : Int) = ((c.st.pc.toNat + 2 * words : Nat) : Int) := by push_cast; rfl
      rw [advance, movePc_inside (by omega) (by omega), hcast, BitVec.ofInt_natCast, BitVec.ofNat_add, BitVec.ofNat_toNat,
        BitVec.setWidth_eq]
      rfl
  · refine ⟨Config.freePc c.st.draws ++ 0#1, 1, ?_, ?_⟩
    · rw [State.pcPast, if_neg hin]
      exact ⟨getLsbD_append_zero _, rfl⟩
    · rw [advance, movePc, if_neg (by omega)]
      rfl

/-- The end of an instruction that has not written DISICNT: the PC past it, its cycles counted, and nothing else. -/
theorem retire_advance_finished (i : Instr) (s : State) (words : Nat) {c : Cpu} (h : c.disiWritten = false) :
    ∃ p d, c.st.pcPast words p d ∧ (retire i s (advance words c)).st = c.st.finished p d (cycles i s) := by
  obtain ⟨p, d, hp, hadvance⟩ := advance_pcPast words c
  refine ⟨p, d, hp, ?_⟩
  rw [hadvance, retire_counts (c := c.update _) h, countDown_eq]
  rfl

/-! ### Conflicts and raises one after another -/

/-- The conflict of an oscillator failure: the CPU priority at 14 or above; no trap has a higher level (R228). -/
theorem conflicts_oscFail (s : State) : s.conflicts .oscFail = decide (14 ≤ s.cpuIpl) := by
  have hhard : Trap.oscFail.hard = true := rfl
  have hnone : ∀ t : Trap, decide (Trap.oscFail.level < t.level) = false := fun t => by cases t <;> rfl
  simp only [State.conflicts, State.hardConflict, List.any_cons, List.any_nil, hhard, hnone, Bool.true_and,
    Bool.false_and, Bool.or_false]
  rfl

theorem conflicts_soft (s : State) {t : Trap} (h : t.hard = false) : s.conflicts t = false := by
  rw [State.conflicts, h, Bool.false_and]

theorem trapFlag_flagTrap (s : State) (t t' : Trap) : (s.flagTrap t).trapFlag t' = (s.trapFlag t' || decide (t = t')) := by
  rw [State.trapFlag, flagTrap_intcon1, getLsbD_setBit]
  cases t <;> cases t' <;> simp [Trap.flagBit, State.trapFlag]

/-- A flag set changes no conflict but that of an address error, which a pending oscillator failure blocks (R228). -/
theorem conflicts_flagTrap (s : State) {t t' : Trap} (h : t = .oscFail → t' ≠ .addrErr) :
    (s.flagTrap t).conflicts t' = s.conflicts t' := by
  cases t' with
  | oscFail =>
    rw [conflicts_oscFail, conflicts_oscFail]
    rfl
  | addrErr =>
    have hne : t ≠ .oscFail := fun ht => h ht rfl
    rw [conflicts_addrErr, conflicts_addrErr, trapFlag_flagTrap, decide_eq_false hne, Bool.or_false]
    rfl
  | stkErr | mathErr => rw [conflicts_soft _ rfl, conflicts_soft _ rfl]

/-- A conflict stands when a further flag is set. -/
theorem conflicts_flagTrap_of_conflicts {s : State} (t : Trap) {t' : Trap} (h : s.conflicts t' = true) :
    (s.flagTrap t).conflicts t' = true := by
  by_cases hboth : t = .oscFail ∧ t' = .addrErr
  · obtain ⟨rfl, rfl⟩ := hboth
    rw [conflicts_addrErr] at h ⊢
    have hcpu : (s.flagTrap .oscFail).cpuIpl = s.cpuIpl := rfl
    rw [hcpu, trapFlag_flagTrap]
    simp only [decide_true, Bool.or_true, Bool.true_and, Bool.or_eq_true, decide_eq_true_eq]
    omega
  · rw [conflicts_flagTrap s fun ht ht' => hboth ⟨ht, ht'⟩]
    exact h

/-- Traps raised one after another: the device is Reset, or their flags are set. -/
theorem raiseAll_cases (ts : List Trap) (c : Cpu) :
    raiseAll ts c = .reset (deviceReset .trapConflict c.st) ∨
      ∃ x, raiseAll ts c = .ok () (c.update fun s => { s with intcon1 := x }) ∧
        ∀ b, x.getLsbD b = (c.st.intcon1.getLsbD b || ts.any fun t => t.flagBit == b) := by
  induction ts generalizing c with
  | nil => exact .inr ⟨c.st.intcon1, rfl, fun b => by simp⟩
  | cons t rest ih =>
    cases h : c.st.conflicts t with
    | true => exact .inl (by rw [raiseAll, raise_of_conflicts h]; rfl)
    | false =>
      rw [raiseAll, raise_of_not_conflicts h, bind_ok]
      refine (ih _).imp id fun ⟨x, hx, hbits⟩ => ⟨x, hx, fun b => ?_⟩
      have hflag : t.flagBit < 16 := by cases t <;> decide
      rw [hbits, update_st, flagTrap_intcon1, getLsbD_setBit, List.any_cons]
      by_cases htb : t.flagBit = b
      · simp [htb, htb ▸ hflag]
      · simp [htb, beq_eq_false_iff_ne.2 htb]

/-- One that conflicts before any is raised resets the device, whatever comes before it. -/
theorem raiseAll_of_conflicts {ts : List Trap} {t : Trap} (ht : t ∈ ts) {c : Cpu} (h : c.st.conflicts t = true) :
    raiseAll ts c = .reset (deviceReset .trapConflict c.st) := by
  induction ts generalizing c with
  | nil => cases ht
  | cons head rest ih =>
    cases hhead : c.st.conflicts head with
    | true => rw [raiseAll, raise_of_conflicts hhead, bind_reset]
    | false =>
      have hrest : t ∈ rest := (List.mem_cons.1 ht).resolve_left fun he => by simp [← he, h] at hhead
      rw [raiseAll, raise_of_not_conflicts hhead, bind_ok]
      exact ih hrest (conflicts_flagTrap_of_conflicts head h)

/-- Where none conflicts before any is raised, and not both hard traps are raised, the device is not Reset. -/
theorem raiseAll_ne_reset {ts : List Trap} {c : Cpu} (h : ∀ t ∈ ts, c.st.conflicts t = false)
    (hboth : ¬ (.oscFail ∈ ts ∧ .addrErr ∈ ts)) (u : State) : raiseAll ts c ≠ .reset u := by
  induction ts generalizing c with
  | nil => exact nofun
  | cons t rest ih =>
    rw [raiseAll, raise_of_not_conflicts (h t (List.mem_cons_self ..)), bind_ok]
    refine ih (fun t' ht' => ?_) fun ⟨hosc, haddr⟩ => hboth ⟨List.mem_cons_of_mem _ hosc, List.mem_cons_of_mem _ haddr⟩
    refine (conflicts_flagTrap c.st fun ht haddr => hboth ?_).trans (h t' (List.mem_cons_of_mem _ ht'))
    exact ⟨ht ▸ List.mem_cons_self .., haddr ▸ List.mem_cons_of_mem _ ht'⟩

/-! ### A word written to INTCON1 -/

/-- The traps a word written to INTCON1 requests: those whose flag it takes from 0 to 1 (D6). -/
theorem mem_requestedTraps {old v : Word} {oscFirst : Bool} {t : Trap} :
    t ∈ requestedTraps old 0xFFFF v oscFirst ↔ v.getLsbD t.flagBit = true ∧ old.getLsbD t.flagBit = false := by
  cases oscFirst <;> cases t <;> simp [requestedTraps, Trap.flagBit]

theorem requestedTraps_any (old v : Word) (oscFirst : Bool) (b : Nat) :
    ((requestedTraps old 0xFFFF v oscFirst).any fun t => t.flagBit == b) =
      (decide (1 ≤ b ∧ b ≤ 4) && v.getLsbD b && !old.getLsbD b) := by
  rw [Bool.eq_iff_iff]
  simp only [List.any_eq_true, mem_requestedTraps, beq_iff_eq, Bool.and_eq_true, Bool.not_eq_true', decide_eq_true_eq]
  constructor
  · rintro ⟨t, ⟨hv, hold⟩, rfl⟩
    exact ⟨⟨by cases t <;> decide, hv⟩, hold⟩
  · rintro ⟨⟨hb, hv⟩, hold⟩
    obtain ⟨t, rfl⟩ : ∃ t : Trap, t.flagBit = b := by
      obtain rfl | rfl | rfl | rfl : b = 1 ∨ b = 2 ∨ b = 3 ∨ b = 4 := by omega
      exacts [⟨.oscFail, rfl⟩, ⟨.stkErr, rfl⟩, ⟨.addrErr, rfl⟩, ⟨.mathErr, rfl⟩]
    exact ⟨t, ⟨hv, hold⟩, rfl⟩

/-- INTCON1 after the clears of a written word, before any request: MATHERR is kept while it is held (D32). -/
def intcon1Cleared (s : State) (v : Word) : Word :=
  accessWrite 0x8700 (if s.mathErrHeld then 0x000E else 0x001E) 0xFFFF s.intcon1 v

theorem getLsbD_intcon1Cleared (s : State) (v : Word) (b : Nat) : (intcon1Cleared s v).getLsbD b =
    if b = 15 ∨ b = 10 ∨ b = 9 ∨ b = 8 then v.getLsbD b
    else if b = 1 ∨ b = 2 ∨ b = 3 then s.intcon1.getLsbD b && v.getLsbD b
    else if b = 4 then s.intcon1.getLsbD b && (v.getLsbD b || s.mathErrHeld)
    else s.intcon1.getLsbD b := by
  rw [intcon1Cleared, getLsbD_accessWrite]
  by_cases hb : b < 16
  · cases s.mathErrHeld <;> interval_cases b <;> simp
  · simp [BitVec.getLsbD_of_ge _ b (Nat.le_of_not_lt hb)]

/-- INTCON1 after the clears and the requests, where no conflict resets the device: `may` says whether the device lets a written 1
request a trap. -/
theorem cleared_or_requested_bit (s : State) (v : Word) (may : Bool) (b : Nat) :
    ((intcon1Cleared s v).getLsbD b || (may && (decide (1 ≤ b ∧ b ≤ 4) && v.getLsbD b && !s.intcon1.getLsbD b))) =
      if b = 15 ∨ b = 10 ∨ b = 9 ∨ b = 8 then v.getLsbD b
      else if b = 1 ∨ b = 2 ∨ b = 3 then v.getLsbD b && (s.intcon1.getLsbD b || may)
      else if b = 4 then (v.getLsbD b && (s.intcon1.getLsbD b || may)) || (s.intcon1.getLsbD b && s.mathErrHeld)
      else s.intcon1.getLsbD b := by
  rw [getLsbD_intcon1Cleared]
  split
  · simp [show ¬ (1 ≤ b ∧ b ≤ 4) by omega]
  split
  · rw [decide_eq_true (show 1 ≤ b ∧ b ≤ 4 by omega)]
    cases s.intcon1.getLsbD b <;> cases v.getLsbD b <;> cases may <;> rfl
  split
  · rw [decide_eq_true (show 1 ≤ b ∧ b ≤ 4 by omega)]
    cases s.intcon1.getLsbD b <;> cases v.getLsbD b <;> cases may <;> simp
  · simp [show ¬ (1 ≤ b ∧ b ≤ 4) by omega]

/-- On a device whose parameter says no, a written 1 requests nothing (D6). -/
theorem writeIntcon1_silent {v : Word} {c : Cpu} (h : c.st.device.trapFlagSwSet = false) :
    writeIntcon1 0xFFFF v c = .ok () (c.update fun s => { s with intcon1 := intcon1Cleared c.st v }) := by
  simp only [writeIntcon1, h]
  rfl

/-- The step after the clears, the order of the two hard traps drawn: the requests start here (log 41). -/
def afterClears (v : Word) (c : Cpu) : Cpu :=
  c.update fun s => { s with intcon1 := intcon1Cleared s v, draws := s.draws + 1 }

/-- OSCFAIL stands after the clears where it stood and the word does not clear it. -/
theorem trapFlag_afterClears_oscFail (v : Word) (c : Cpu) :
    (afterClears v c).st.trapFlag .oscFail = (c.st.trapFlag .oscFail && v.getLsbD 1) := by
  show (intcon1Cleared c.st v).getLsbD 1 = _
  rw [getLsbD_intcon1Cleared]
  rfl

theorem conflicts_afterClears_oscFail (v : Word) (c : Cpu) :
    (afterClears v c).st.conflicts .oscFail = true ↔ 14 ≤ c.st.cpuIpl := by
  rw [conflicts_oscFail, decide_eq_true_eq]
  rfl

theorem conflicts_afterClears_addrErr (v : Word) (c : Cpu) : (afterClears v c).st.conflicts .addrErr = true ↔
    13 ≤ c.st.cpuIpl ∨ (c.st.trapFlag .oscFail = true ∧ v.getLsbD 1 = true) := by
  have hcpu : (afterClears v c).st.cpuIpl = c.st.cpuIpl := rfl
  rw [conflicts_addrErr, trapFlag_afterClears_oscFail, hcpu]
  simp only [Bool.or_eq_true, Bool.and_eq_true, decide_eq_true_eq]
  constructor
  · exact Or.imp_right And.left
  · rintro (h | h)
    · exact .inl h
    · by_cases h13 : 13 ≤ c.st.cpuIpl
      · exact .inl h13
      · exact .inr ⟨h, by omega⟩

/-- The written word requests the trap: the device lets it, and it takes the flag from 0 to 1 (D6). -/
def requestsTrap (s : State) (v : Word) (t : Trap) : Prop :=
  s.device.trapFlagSwSet = true ∧ v.getLsbD t.flagBit = true ∧ s.trapFlag t = false

section
variable {v : Word} {c : Cpu}

theorem writeIntcon1_requests (hmay : c.st.device.trapFlagSwSet = true) : writeIntcon1 0xFFFF v c =
    raiseAll (requestedTraps c.st.intcon1 0xFFFF v (Config.freeBit c.st.draws)) (afterClears v c) := by
  simp only [writeIntcon1, hmay]
  rfl

/-- The two ends of a word written to INTCON1: a Reset, or the enables, the clears and the requested flags written. -/
theorem writeIntcon1_cases (v : Word) (c : Cpu) :
    writeIntcon1 0xFFFF v c = .reset (deviceReset .trapConflict (afterClears v c).st) ∨
      ∃ x, writeIntcon1 0xFFFF v c = .ok () (c.update fun s =>
          { s with intcon1 := x, draws := s.draws + if c.st.device.trapFlagSwSet then 1 else 0 }) ∧
        ∀ b, x.getLsbD b = ((intcon1Cleared c.st v).getLsbD b ||
          (c.st.device.trapFlagSwSet && (decide (1 ≤ b ∧ b ≤ 4) && v.getLsbD b && !c.st.intcon1.getLsbD b))) := by
  cases hmay : c.st.device.trapFlagSwSet with
  | false => exact .inr ⟨intcon1Cleared c.st v, writeIntcon1_silent hmay, fun b => by rw [Bool.false_and, Bool.or_false]⟩
  | true =>
    rw [writeIntcon1_requests hmay]
    refine (raiseAll_cases _ _).imp id fun ⟨x, hx, hbits⟩ => ⟨x, hx, fun b => ?_⟩
    rw [hbits, requestedTraps_any, Bool.true_and]
    rfl

/-- A requested trap that conflicts after the clears resets the device, whatever else is requested. -/
theorem writeIntcon1_of_conflicts {t : Trap} (hreq : requestsTrap c.st v t) (h : (afterClears v c).st.conflicts t = true) :
    writeIntcon1 0xFFFF v c = .reset (deviceReset .trapConflict (afterClears v c).st) := by
  obtain ⟨hmay, hset, hflag⟩ := hreq
  rw [writeIntcon1_requests hmay]
  exact raiseAll_of_conflicts (mem_requestedTraps.2 ⟨hset, hflag⟩) h

/-- Requests that do not conflict after the clears, not both of the hard traps, do not reset the device. -/
theorem writeIntcon1_ne_reset (h : ∀ t, requestsTrap c.st v t → (afterClears v c).st.conflicts t = false)
    (hboth : ¬ (requestsTrap c.st v .oscFail ∧ requestsTrap c.st v .addrErr)) (u : State) :
    writeIntcon1 0xFFFF v c ≠ .reset u := by
  cases hmay : c.st.device.trapFlagSwSet with
  | false =>
    rw [writeIntcon1_silent hmay]
    exact nofun
  | true =>
    have hreq : ∀ t ∈ requestedTraps c.st.intcon1 0xFFFF v (Config.freeBit c.st.draws), requestsTrap c.st v t :=
      fun t ht => ⟨hmay, mem_requestedTraps.1 ht⟩
    rw [writeIntcon1_requests hmay]
    exact raiseAll_ne_reset (fun t ht => h t (hreq t ht)) (fun ⟨hosc, haddr⟩ => hboth ⟨hreq _ hosc, hreq _ haddr⟩) u

end

/-! ### POP INTCON1 -/

/-- The state POP INTCON1 writes into: W15 two lower. -/
abbrev popped (s : State) : State := s.putW 15 (s.getW 15 - 2)

/-- The word it writes. -/
abbrev poppedWord (s : State) : Word := s.dataWord (s.getW 15 - 2)

section
variable {s : State} (hstack : s.stackHolds 1)
include hstack

theorem exec_pop_intcon1 : exec (.pop 0x0040) s = ((writeIntcon1 0xFFFF (poppedWord s) (start (popped s))).bind
    fun _ c => .ok () (retire (.pop 0x0040) s (advance 1 c))).outcome := by
  have hwrite : writeWord (fileAddress 0x0040) (poppedWord s) false (start (popped s)) =
      writeReg .intcon1 true 0xFFFF (poppedWord s) (start (popped s)) :=
    writeWord_reg (by decide) (by decide) (regAt_of_tableReg _ (by decide)) (fun hb => nomatch hb) rfl
  rw [exec_pop_holds hstack, hwrite]
  rfl

theorem exec_pop_intcon1_reset {u : State} (h : writeIntcon1 0xFFFF (poppedWord s) (start (popped s)) = .reset u) :
    exec (.pop 0x0040) s = .next u := by
  rw [exec_pop_intcon1 hstack, h]
  rfl

theorem exec_pop_intcon1_ok {x : Word} {e : Nat} (h : writeIntcon1 0xFFFF (poppedWord s) (start (popped s)) =
      .ok () (start { popped s with intcon1 := x, draws := s.draws + e })) :
    ∃ p d, s.pcPast 1 p d ∧
      exec (.pop 0x0040) s = .next { (popped s).finished p (d + e) (cycles (.pop 0x0040) s) with intcon1 := x } := by
  obtain ⟨p, d, hp, hend⟩ := retire_advance_finished (.pop 0x0040) s 1
    (c := start { popped s with intcon1 := x, draws := s.draws + e }) rfl
  refine ⟨p, d, hp, ?_⟩
  rw [exec_pop_intcon1 hstack, h, bind_ok, outcome_ok, hend, Nat.add_comm d e]
  simp only [State.finished, start_st, Nat.add_assoc]
  rfl

end

/-- Settles O44: the word clears and enables, then requests; the conflicts are those of the state after the clears. -/
theorem popWritesIntcon1 : Obligations.PopWritesIntcon1 := by
  intro s hstack v held may osc addr conflict resets writes
  have hresets : writeIntcon1 0xFFFF v (start (popped s)) =
      .reset (deviceReset .trapConflict (afterClears v (start (popped s))).st) → resets := exec_pop_intcon1_reset hstack
  have hwrites : (∃ x, writeIntcon1 0xFFFF v (start (popped s)) =
        .ok () (start { popped s with intcon1 := x, draws := s.draws + if may then 1 else 0 }) ∧
      ∀ b, x.getLsbD b = ((intcon1Cleared s v).getLsbD b ||
        (may && (decide (1 ≤ b ∧ b ≤ 4) && v.getLsbD b && !s.intcon1.getLsbD b)))) → writes := fun ⟨x, hx, hbits⟩ => by
    obtain ⟨p, d, hp, hexec⟩ := exec_pop_intcon1_ok hstack hx
    exact ⟨p, d, x, hp, hexec, fun b => (hbits b).trans (cleared_or_requested_bit s v may b)⟩
  have hcases := writeIntcon1_cases v (start (popped s))
  have hosc : (afterClears v (start (popped s))).st.conflicts .oscFail = true ↔ 14 ≤ s.cpuIpl :=
    conflicts_afterClears_oscFail v (start (popped s))
  have haddr : (afterClears v (start (popped s))).st.conflicts .addrErr = true ↔
      13 ≤ s.cpuIpl ∨ (s.trapFlag .oscFail = true ∧ v.getLsbD 1 = true) := conflicts_afterClears_addrErr v (start (popped s))
  refine ⟨?_, fun hc hboth => hwrites (hcases.resolve_left (writeIntcon1_ne_reset
    (c := start (popped s)) (fun t hreq => ?_) hboth _)), fun _ _ => hcases.imp hresets hwrites⟩
  · rintro (⟨hreq, hlevel⟩ | ⟨hreq, hlevel⟩)
    · exact hresets (writeIntcon1_of_conflicts (t := .oscFail) hreq (hosc.2 hlevel))
    · exact hresets (writeIntcon1_of_conflicts (t := .addrErr) hreq (haddr.2 hlevel))
  · cases t with
    | oscFail => exact Bool.eq_false_of_not_eq_true fun h => hc (.inl ⟨hreq, hosc.1 h⟩)
    | addrErr => exact Bool.eq_false_of_not_eq_true fun h => hc (.inr ⟨hreq, haddr.1 h⟩)
    | stkErr | mathErr => exact conflicts_soft _ rfl

end Sys2Proof.Machine
end

section
/-! PROOFS. Program memory and the device's parameters: no step writes them, a device Reset included. -/

namespace Sys2Proof.Machine

/-- A device Reset keeps program memory (R281), and so did every part of the step before it. -/
theorem ResetFrom.prog {s t : State} (h : ResetFrom s t) : t.prog = s.prog := by
  obtain ⟨cause, u, rfl, hprog, -, -⟩ := h
  exact hprog

/-- The parameters are the device's own: a Reset gives them no reset value (R4, R281). -/
theorem ResetFrom.device {s t : State} (h : ResetFrom s t) : t.device = s.device := by
  obtain ⟨cause, u, rfl, -, hdevice, -⟩ := h
  exact hdevice

/-- Settles O9: a step keeps both part by part, or ends in a device Reset, which keeps both as well. -/
theorem stepKeepsProgramMemory : Obligations.StepKeepsProgramMemory := by
  intro s t h
  show t.prog = s.onward.prog ∧ t.device = s.onward.device
  rcases step_keeps h with hkeeps | hreset
  · exact ⟨hkeeps.prog, hkeeps.device⟩
  · exact ⟨hreset.prog, hreset.device⟩

end Sys2Proof.Machine
end

section
/-! PROOFS. The decoder and the encoder: what a field of an encoded word reads as, how a decoded word is put together from its fields, and
the rows of the opcode table. -/

namespace Sys2Proof

/-! ### Words and their fields -/

/-- Two adjacent fields of a word, read as one. -/
theorem append_eq_field {N j k m n : Nat} {w : BitVec N} {x : BitVec m} {y : BitVec n} (hx : x = w.extractLsb' j m)
    (hy : w.extractLsb' k n = y) (hj : j = k + n := by rfl) : x ++ y = w.extractLsb' k (m + n) := by
  rw [hx, ← hy, BitVec.extractLsb'_append_extractLsb'_eq_extractLsb' hj]

/-- A word is its upper and its lower field. -/
theorem append_eq_word {m n : Nat} {w : BitVec (m + n)} {x : BitVec m} {y : BitVec n} (hx : x = w.extractLsb' n m)
    (hy : w.extractLsb' 0 n = y) : x ++ y = w := by
  rw [hx, ← hy, BitVec.extractLsb'_append_extractLsb']

/-- A mask acts on each field by itself. -/
theorem append_and {m n : Nat} (x : BitVec m) (y : BitVec n) (mask : BitVec (m + n)) :
    (x ++ y) &&& mask = (x &&& mask.extractLsb' n m) ++ (y &&& mask.extractLsb' 0 n) := by
  rw [← BitVec.and_append, BitVec.extractLsb'_append_extractLsb']

theorem ofBool_getLsbD {n : Nat} (w : BitVec n) (k : Nat) : BitVec.ofBool (w.getLsbD k) = w.extractLsb' k 1 := by
  ext i hi
  obtain rfl : i = 0 := by omega
  simp

/-! ### The coded fields -/

@[simp] theorem decodeMode_encodeMode (m : AddrMode) : decodeMode (encodeMode m) = m := by cases m <;> rfl
@[simp] theorem decodeAcc_encodeAcc (x : AccSel) : decodeAcc ((encodeAcc x).getLsbD 0) = x := by cases x <;> rfl
@[simp] theorem decodeWidth_encodeWidth (x : DivWidth) : decodeWidth ((encodeWidth x).getLsbD 0) = x := by cases x <;> rfl

theorem encodeMode_decodeMode : ∀ b : BitVec 3, encodeMode (decodeMode b) = b := by decide

theorem field_eq_encodeAcc (w : ProgWord) (k : Nat) : w.extractLsb' k 1 = encodeAcc (decodeAcc (w.getLsbD k)) := by
  rw [← ofBool_getLsbD]
  cases w.getLsbD k <;> rfl

theorem field_eq_encodeWidth (w : ProgWord) (k : Nat) : w.extractLsb' k 1 = encodeWidth (decodeWidth (w.getLsbD k)) := by
  rw [← ofBool_getLsbD]
  cases w.getLsbD k <;> rfl

theorem field_eq_encodePower (w : ProgWord) (k : Nat) : w.extractLsb' k 1 = encodePower (decodePower (w.getLsbD k)) := by
  rw [← ofBool_getLsbD]
  cases w.getLsbD k <;> rfl

theorem field_eq_encodeMode (w : ProgWord) (k : Nat) : w.extractLsb' k 3 = encodeMode (decodeMode (w.extractLsb' k 3)) :=
  (encodeMode_decodeMode _).symm

/-! ### From the instruction to its words and back -/

/-- Whatever bits the decoder tests or reads of an encoded word lie inside one field of its row's pattern, and a field of a concatenation is
a field of one of its parts. `Nat.reduceAdd` would add up the parts' widths in the types, where these rules could no longer match. -/
theorem decode_encodeWord1 {i : Instr} (hi : i.isFirstWord = true) {w2 : ProgWord} (h2 : i.words = 2 → w2 = encodeWord2 i) :
    decode (encodeWord1 i) w2 = .ok i := by
  cases i with
  | gotoWord2 n => cases hi
  | nop | returnSub | retfie | reset => rfl
  | pwrsav m => cases m <;> rfl
  | goto t =>
    simp [decode, encodeWord1, h2 rfl, encodeWord2, BitVec.extractLsb'_append_eq_of_le, BitVec.extractLsb'_append_eq_of_add_le,
      -Nat.reduceAdd]
  | bra | repeatLit | repeatReg | disi | sftacLit | sftacReg | push | pop | movdLoad | movdStore | btscF | btscW | btssF | btssW |
    divS | divU | divF =>
    simp [decode, encodeWord1, BitVec.extractLsb'_append_eq_of_le, BitVec.extractLsb'_append_eq_of_add_le, BitVec.getLsbD_append,
      -BitVec.getLsbD_eq_getElem, -Nat.reduceAdd]

theorem encode_eq (i : Instr) : encode i = encodeWord1 i :: (if i.words = 2 then [encodeWord2 i] else []) := by
  cases i <;> rfl

/-- Settles O1: the decoder meets in each word the fields that the encoder wrote. -/
theorem decodeReadsBackEncode : Obligations.DecodeReadsBackEncode :=
  fun i _ hi h2 => ⟨decode_encodeWord1 hi h2, encode_eq i⟩

/-! ### From a word to its row -/

/-- The fixed bits of a row stand in each of its words, whatever the operands are. -/
theorem encodeWord1_and_mask (i : Instr) : encodeWord1 i &&& (opcodeRow i).1 = (opcodeRow i).2 := by
  cases i with
  | nop | returnSub | retfie | reset => rfl
  | bra | gotoWord2 | repeatLit | repeatReg | disi | pwrsav =>
    simp only [encodeWord1, opcodeRow, -Nat.reduceAdd]
    rw [append_and]
    simp
  | goto | sftacLit | sftacReg | push | pop | movdLoad | movdStore | btscF | btscW | btssF | btssW | divS | divU | divF =>
    simp only [encodeWord1, opcodeRow, -Nat.reduceAdd]
    rw [append_and]
    simp only [append_and, -Nat.reduceAdd]
    simp

/-- What `i` read from `w`, with `w2` after it, says of these words: they are the words of `i`, but for the ignored bits of NOP. -/
structure ReadFrom (w w2 : ProgWord) (i : Instr) : Prop where
  first : i.isFirstWord = true
  row : w &&& (opcodeRow i).1 = (opcodeRow i).2
  word1 : i ≠ .nop → w = encodeWord1 i
  word2 : i.words = 2 → w2 = encodeWord2 i

theorem readFrom_of_word {w w2 : ProgWord} {i : Instr} (hw : encodeWord1 i = w) (hi : i.isFirstWord = true := by rfl)
    (h2 : i.words = 2 → w2 = encodeWord2 i := by nofun) : ReadFrom w w2 i where
  first := hi
  row := hw ▸ encodeWord1_and_mask i
  word1 _ := hw.symm
  word2 := h2

theorem readFrom_nop {w : ProgWord} (w2 : ProgWord) (hop : w.extractLsb' 16 8 = 0) : ReadFrom w w2 .nop where
  first := rfl
  row := by
    rw [← append_eq_word hop.symm (Eq.refl (w.extractLsb' 0 16))]
    exact (append_and _ _ _).trans (by simp [opcodeRow])
  word1 h := absurd rfl h
  word2 := nofun

/-- The word of a file form of the bit tests, under either of its two codes. -/
theorem bitTestFile_word {w : ProgWord} {op : BitVec 8} (hop : w.extractLsb' 16 8 = op) :
    op ++ (w.extractLsb' 0 1 ++ w.extractLsb' 13 3).extractLsb' 0 3 ++ w.extractLsb' 1 12 ++
      (w.extractLsb' 0 1 ++ w.extractLsb' 13 3).extractLsb' 3 1 = w :=
  append_eq_word (append_eq_field (append_eq_field hop.symm BitVec.extractLsb'_append_eq_right.symm) rfl)
    BitVec.extractLsb'_append_eq_left.symm

/-- The word of a register form of the bit tests. -/
theorem bitTestOperand_word {w : ProgWord} {op : BitVec 8} (hop : w.extractLsb' 16 8 = op) (h7 : w.extractLsb' 7 5 = 0) :
    op ++ w.extractLsb' 12 4 ++ 0#5 ++ encodeMode (decodeMode (w.extractLsb' 4 3)) ++ w.extractLsb' 0 4 = w :=
  append_eq_word (append_eq_field (append_eq_field (append_eq_field hop.symm rfl) h7) (field_eq_encodeMode w 4)) rfl

/-- The word of a signed or an unsigned divide. -/
theorem divide_word {w : ProgWord} {u : BitVec 1} (hop : w.extractLsb' 16 8 = 0xD8) (h15 : w.extractLsb' 15 1 = u)
    (h4 : w.extractLsb' 4 2 = 0) : 0xD8#8 ++ u ++ w.extractLsb' 11 4 ++ w.extractLsb' 7 4 ++
      encodeWidth (decodeWidth (w.getLsbD 6)) ++ 0#2 ++ w.extractLsb' 0 4 = w :=
  have operands := append_eq_field (append_eq_field (append_eq_field hop.symm h15) rfl) (Eq.refl (w.extractLsb' 7 4))
  append_eq_word (append_eq_field (append_eq_field operands (field_eq_encodeWidth w 6)) h4) rfl

/-- The decoder's rows in its order. Each accepts a word by its fixed fields, and its operands are the other fields. -/
theorem readFrom_of_decode {w w2 : ProgWord} {i : Instr} (h : decode w w2 = .ok i) : ReadFrom w w2 i := by
  unfold decode at h
  dsimp only at h
  -- NOP
  rcases ite_eq_iff.1 h with ⟨hop, ⟨⟩⟩ | ⟨-, h⟩
  · exact readFrom_nop w2 hop
  -- BRA
  rcases ite_eq_iff.1 h with ⟨hop, ⟨⟩⟩ | ⟨-, h⟩
  · exact readFrom_of_word (append_eq_word hop.symm rfl)
  -- GOTO
  rcases ite_eq_iff.1 h with ⟨hop, h⟩ | ⟨-, h⟩
  · rcases ite_eq_iff.1 h with ⟨-, ⟨⟩⟩ | ⟨h0, h⟩
    rcases ite_eq_iff.1 h with ⟨-, ⟨⟩⟩ | ⟨hsecond, ⟨⟩⟩
    exact readFrom_of_word
      (append_eq_word (append_eq_field hop.symm BitVec.extractLsb'_append_eq_right.symm) (not_ne_iff.1 h0)) rfl
      fun _ => (append_eq_word (not_ne_iff.1 hsecond).symm BitVec.extractLsb'_append_eq_left.symm).symm
  -- RETURN and RETFIE
  rcases ite_eq_iff.1 h with ⟨hop, h⟩ | ⟨-, h⟩
  · rcases ite_eq_iff.1 h with ⟨hlow, ⟨⟩⟩ | ⟨-, h⟩
    · exact readFrom_of_word (append_eq_word hop.symm hlow)
    rcases ite_eq_iff.1 h with ⟨hlow, ⟨⟩⟩ | ⟨-, ⟨⟩⟩
    exact readFrom_of_word (append_eq_word hop.symm hlow)
  -- the two forms of REPEAT
  rcases ite_eq_iff.1 h with ⟨hop, h⟩ | ⟨-, h⟩
  · rcases ite_eq_iff.1 h with ⟨h14, ⟨⟩⟩ | ⟨-, h⟩
    · exact readFrom_of_word (append_eq_word (append_eq_field hop.symm h14) rfl)
    rcases ite_eq_iff.1 h with ⟨h4, ⟨⟩⟩ | ⟨-, ⟨⟩⟩
    have hfixed : 0x09800#20 = w.extractLsb' 4 20 := append_eq_field hop.symm h4
    exact readFrom_of_word (append_eq_word hfixed rfl)
  -- DISI
  rcases ite_eq_iff.1 h with ⟨hop, h⟩ | ⟨-, h⟩
  · rcases ite_eq_iff.1 h with ⟨h14, ⟨⟩⟩ | ⟨-, ⟨⟩⟩
    exact readFrom_of_word (append_eq_word (append_eq_field hop.symm h14) rfl)
  -- RESET and PWRSAV
  rcases ite_eq_iff.1 h with ⟨hop, h⟩ | ⟨-, h⟩
  · rcases ite_eq_iff.1 h with ⟨hlow, ⟨⟩⟩ | ⟨-, h⟩
    · exact readFrom_of_word (append_eq_word hop.symm hlow)
    rcases ite_eq_iff.1 h with ⟨h1, ⟨⟩⟩ | ⟨-, ⟨⟩⟩
    have hfixed : 0x7F2000#23 = w.extractLsb' 1 23 := append_eq_field hop.symm h1
    exact readFrom_of_word (append_eq_word hfixed (field_eq_encodePower w 0))
  -- the two forms of SFTAC
  rcases ite_eq_iff.1 h with ⟨hop, h⟩ | ⟨-, h⟩
  · have hacc := append_eq_field hop.symm (field_eq_encodeAcc w 15)
    rcases ite_eq_iff.1 h with ⟨h6, ⟨⟩⟩ | ⟨-, h⟩
    · exact readFrom_of_word (append_eq_word (append_eq_field hacc h6) rfl)
    rcases ite_eq_iff.1 h with ⟨h4, ⟨⟩⟩ | ⟨-, ⟨⟩⟩
    exact readFrom_of_word (append_eq_word (append_eq_field hacc h4) rfl)
  -- PUSH
  rcases ite_eq_iff.1 h with ⟨hop, h⟩ | ⟨-, h⟩
  · rcases ite_eq_iff.1 h with ⟨h0, ⟨⟩⟩ | ⟨-, ⟨⟩⟩
    exact readFrom_of_word (append_eq_word (append_eq_field hop.symm rfl) h0)
  -- POP
  rcases ite_eq_iff.1 h with ⟨hop, h⟩ | ⟨-, h⟩
  · rcases ite_eq_iff.1 h with ⟨h0, ⟨⟩⟩ | ⟨-, ⟨⟩⟩
    exact readFrom_of_word (append_eq_word (append_eq_field hop.symm rfl) h0)
  -- the two forms of MOV.D
  rcases ite_eq_iff.1 h with ⟨hop, h⟩ | ⟨-, h⟩
  · rcases ite_eq_iff.1 h with ⟨⟨h11, h7⟩, ⟨⟩⟩ | ⟨-, h⟩
    · have hfixed := append_eq_field (append_eq_field (append_eq_field hop.symm h11) (Eq.refl (w.extractLsb' 8 3))) h7
      exact readFrom_of_word (append_eq_word (append_eq_field hfixed (field_eq_encodeMode w 4)) rfl)
    rcases ite_eq_iff.1 h with ⟨⟨h14, h4, h0⟩, ⟨⟩⟩ | ⟨-, ⟨⟩⟩
    have hdest := append_eq_field (append_eq_field (append_eq_field hop.symm h14) (field_eq_encodeMode w 11))
      (Eq.refl (w.extractLsb' 7 4))
    exact readFrom_of_word (append_eq_word (append_eq_field (append_eq_field hdest h4) rfl) h0)
  -- BTSC f
  rcases ite_eq_iff.1 h with ⟨hop, ⟨⟩⟩ | ⟨-, h⟩
  · exact readFrom_of_word (bitTestFile_word hop)
  -- BTSC Ws
  rcases ite_eq_iff.1 h with ⟨hop, h⟩ | ⟨-, h⟩
  · rcases ite_eq_iff.1 h with ⟨h7, ⟨⟩⟩ | ⟨-, ⟨⟩⟩
    exact readFrom_of_word (bitTestOperand_word hop h7)
  -- BTSS f
  rcases ite_eq_iff.1 h with ⟨hop, ⟨⟩⟩ | ⟨-, h⟩
  · exact readFrom_of_word (bitTestFile_word hop)
  -- BTSS Ws
  rcases ite_eq_iff.1 h with ⟨hop, h⟩ | ⟨-, h⟩
  · rcases ite_eq_iff.1 h with ⟨h7, ⟨⟩⟩ | ⟨-, ⟨⟩⟩
    exact readFrom_of_word (bitTestOperand_word hop h7)
  -- the signed and the unsigned divides
  rcases ite_eq_iff.1 h with ⟨hop, h⟩ | ⟨-, h⟩
  · rcases ite_eq_iff.1 h with ⟨h4, h⟩ | ⟨-, ⟨⟩⟩
    rcases ite_eq_iff.1 h with ⟨h15, ⟨⟩⟩ | ⟨h15, ⟨⟩⟩
    · exact readFrom_of_word (divide_word hop h15 h4)
    · exact readFrom_of_word (divide_word hop ((BitVec.eq_zero_or_eq_one _).resolve_left h15) h4)
  -- DIVF
  rcases ite_eq_iff.1 h with ⟨hop, h⟩ | ⟨-, ⟨⟩⟩
  rcases ite_eq_iff.1 h with ⟨⟨h15, h4⟩, ⟨⟩⟩ | ⟨-, ⟨⟩⟩
  exact readFrom_of_word (append_eq_word (append_eq_field (append_eq_field (append_eq_field hop.symm h15) rfl) h4) rfl)

/-- Settles O2: an accepted word stands in its row, so a word that stands in none is not accepted. -/
theorem decodeRefusesWordsOutsideTable : Obligations.DecodeRefusesWordsOutsideTable := by
  refine ⟨fun w w2 hnone => ?_, fun w w2 i h => ?_⟩
  · cases h : decode w w2 with
    | error why => exact ⟨why, rfl⟩
    | ok i =>
      have hread := readFrom_of_decode h
      exact absurd hread.row (hnone i hread.first)
  · have hread := readFrom_of_decode h
    exact ⟨hread.first, hread.row⟩

/-- Settles O3: every row but that of NOP puts its words together from fixed fields and operands alone. -/
theorem decodedInstructionDeterminesWords : Obligations.DecodedInstructionDeterminesWords := by
  intro w w2 i h hnop
  have hread := readFrom_of_decode h
  exact ⟨hread.word1 hnop, hread.word2⟩

/-- Settles O4, by evaluation. -/
theorem writtenWordsDecode : Obligations.WrittenWordsDecode := by
  unfold Obligations.WrittenWordsDecode
  decide

end Sys2Proof
end

section
/-! PROOFS. The addressing modes: what a pointer's modification does to its register and to the stack error flag. -/

namespace Sys2Proof.Machine

/-! ### The stack error flag -/

theorem stackError_eq_ite (s : State) (bad : Prop) [Decidable bad] :
    s.stackError bad = if bad then { s with intcon1 := s.intcon1 ||| 0x0004 } else s := by
  unfold State.stackError
  split <;> rfl

theorem stackError_congr (s : State) {p q : Prop} [Decidable p] [Decidable q] (h : p ↔ q) : s.stackError p = s.stackError q := by
  simp only [State.stackError, h]

/-- A raise of the stack error under a condition sets its flag under that condition. -/
theorem ite_softTrap_stkErr (c : Cpu) (bad : Prop) [Decidable bad] :
    (if bad then softTrap .stkErr c else c) = c.update fun s => s.stackError bad := by
  unfold State.stackError
  split <;> rfl

/-- Raised before and after a register write, the flag is set once. -/
theorem stackError_putW_stackError (s : State) (r : WReg) (v : Word) (p q : Prop) [Decidable p] [Decidable q] :
    ((s.stackError p).putW r v).stackError q = (s.putW r v).stackError (p ∨ q) := by
  by_cases hp : p <;> by_cases hq : q <;> simp [State.stackError, State.putW, hp, hq, BitVec.or_assoc]

/-! ### Pointers -/

theorem pointerAdd_natCast (r : WReg) (n : Nat) (c : Cpu) : (pointerAdd r n c).1 = c.st.getW r + BitVec.ofNat 16 n := by
  rw [pointerAdd_fst, BitVec.ofInt_natCast]

theorem pointerAdd_neg_natCast (r : WReg) (n : Nat) (c : Cpu) : (pointerAdd r (-n) c).1 = c.st.getW r - BitVec.ofNat 16 n := by
  rw [pointerAdd_fst, BitVec.ofInt_neg, BitVec.ofInt_natCast, BitVec.sub_eq_add_neg]

/-- A pointer moved by `d` to `v`: through W15 the check of the sum (R216) and that of the new pointer (R214) set one flag. -/
theorem writeW_pointerAdd {r : WReg} {d : Int} {s : State} {v : Word} (hv : (pointerAdd r d (start s)).1 = v) {bad : Prop}
    [Decidable bad] (hbad : (((s.getW r).toNat + d < 0 ∨ 0xFFFF < (s.getW r).toNat + d) ∨ v.toNat < 0x0800) ↔ bad) :
    writeW r (pointerAdd r d (start s)).1 (pointerAdd r d (start s)).2 =
      start (if r = 15 ∧ bad then { s.putW r v with intcon1 := s.intcon1 ||| 0x0004 } else s.putW r v) := by
  rw [hv, writeW, ite_softTrap_stkErr, pointerAdd, ite_softTrap_stkErr]
  calc start (((s.stackError (r = 15 ∧ _)).putW r v).stackError (r = 15 ∧ v < 0x0800))
      = start ((s.putW r v).stackError (r = 15 ∧ bad)) :=
        congrArg start ((stackError_putW_stackError s r v _ _).trans
          (stackError_congr _ (and_or_left.symm.trans (and_congr_right' hbad))))
    _ = _ := by rw [stackError_eq_ite]; rfl

/-- An instruction through one of the two unused codes resets the device. -/
theorem exec_unusedMode (s : State) {m : AddrMode} (hm : m.listed = false) (d : BitVec 3) (b : BitVec 4) (r : WReg) :
    exec (.movdLoad d m r) s = .next (deviceReset .software s) ∧ exec (.movdStore m r d) s = .next (deviceReset .software s) ∧
      exec (.btscW b m r) s = .next (deviceReset .software s) ∧ exec (.btssW b m r) s = .next (deviceReset .software s) := by
  cases m with
  | unused6 | unused7 => exact ⟨rfl, rfl, rfl, rfl⟩
  | direct | indirect | postDec | postInc | preDec | preInc => cases hm

/-- Settles O49: both directions of a move are `writeW_pointerAdd`; a pre-modification gives the sum as the address, a post-modification
the old pointer. -/
theorem addressingModesFollowTheFamily : Obligations.AddressingModesFollowTheFamily := by
  refine ⟨fun s r size _ => ?_, fun s m hm => exec_unusedMode s hm⟩
  have hbelow := pointerAdd_neg_natCast r size (start s)
  have habove := pointerAdd_natCast r size (start s)
  have hlt := (s.getW r).isLt
  have hdown := writeW_pointerAdd hbelow (bad := (s.getW r).toNat < size ∨ (s.getW r - BitVec.ofNat 16 size).toNat < 0x0800)
    (or_congr_left (by omega))
  have hup := writeW_pointerAdd habove (bad := 0xFFFF < (s.getW r).toNat + size ∨ (s.getW r + BitVec.ofNat 16 size).toNat < 0x0800)
    (or_congr_left (by omega))
  exact ⟨rfl, Prod.ext rfl hdown, Prod.ext rfl hup, Prod.ext hbelow hdown, Prod.ext habove hup⟩

end Sys2Proof.Machine
end

section
/-! PROOFS. RETFIE: what it restores from a stack that holds a frame. -/

namespace Sys2Proof.Machine

/-- Of two writes of one register the second stands. -/
theorem putW_putW_same (s : State) (r : WReg) (v v' : Word) : (s.putW r v).putW r v' = s.putW r v' := by
  simp [State.putW]

theorem sub_two_sub_two (v : Word) : v - 2 - 2 = v - 4 := by bv_omega

/-- RETFIE with two words to pop: what `restoreFrame` takes from them, W15 four lower, three cycles (R151, R152). -/
theorem exec_retfie_holds {s : State} (h : s.stackHolds 2) : exec .retfie s = .next
    { (s.putW 15 (s.getW 15 - 4)).finished (frameAddress (s.dataWord (s.getW 15 - 2)) (s.dataWord (s.getW 15 - 4))) 0 3 with
      sr := withSrl s.sr ((s.dataWord (s.getW 15 - 2)).extractLsb' 8 8)
      corcon := setBit s.corcon 3 ((s.dataWord (s.getW 15 - 2)).getLsbD 7) } := by
  show (popFrame (start s) _).outcome = _
  rw [popFrame_holds _ h, outcome_ok, retire_counts rfl, countDown_eq]
  simp only [update_st, start_st, getW_putW_same, putW_putW_same, sub_two_sub_two]
  rfl

/-- Settles O30. -/
theorem retfieRestoresStatusAndPc : Obligations.RetfieRestoresStatusAndPc := by
  intro s h hi lo
  refine ⟨setBit s.corcon 3 (hi.getLsbD 7), exec_retfie_holds h, fun b => ?_⟩
  rw [getLsbD_setBit, if_congr (show 3 = b ∧ b < 16 ↔ b = 3 by omega) rfl rfl]

end Sys2Proof.Machine
end

section
/-! PROOFS. Entry and then RETFIE: the frame stored is the frame restored. -/

namespace Sys2Proof.Machine

/-! ### The frame's fields -/

theorem frameHigh_srl (srl : Byte) (ipl3 : Bool) (ret : PC) : (frameHigh srl ipl3 ret).extractLsb' 8 8 = srl := by
  rw [frameHigh, BitVec.extractLsb'_append_eq_of_le (by decide), BitVec.extractLsb'_append_eq_of_le (by decide)]
  exact BitVec.extractLsb'_eq_self

theorem frameHigh_ipl3 (srl : Byte) (ipl3 : Bool) (ret : PC) : (frameHigh srl ipl3 ret).getLsbD 7 = ipl3 := by
  rw [frameHigh, BitVec.getLsbD_append, if_neg (by decide), BitVec.getLsbD_append, if_pos (by decide)]
  simp

theorem frameHigh_pc (srl : Byte) (ipl3 : Bool) (ret : PC) :
    (frameHigh srl ipl3 ret).extractLsb' 0 7 = ret.extractLsb' 16 7 := by
  rw [frameHigh, BitVec.extractLsb'_append_eq_of_add_le (by decide)]
  exact BitVec.extractLsb'_eq_self

/-- The frame holds the whole of an even return address: its bit 0 is the one bit RETFIE does not take (R152, R238). -/
theorem frameAddress_frame (srl : Byte) (ipl3 : Bool) {ret : PC} (heven : ret.getLsbD 0 = false) :
    frameAddress (frameHigh srl ipl3 ret) (ret.extractLsb' 0 16) = ret := by
  have hlow : (ret.extractLsb' 0 16).extractLsb' 1 15 = ret.extractLsb' 1 15 := BitVec.extractLsb'_extractLsb'_of_le (by decide)
  have hbit : ret.extractLsb' 0 1 = 0#1 := by
    rw [← ofBool_getLsbD, heven]
    rfl
  exact append_eq_word (append_eq_field (frameHigh_pc srl ipl3 ret) hlow.symm) hbit

/-! ### What an entry changes, restored -/

theorem enterPriority_sr_upper (cand : Candidate) (level : Nat) (s : State) :
    (enterPriority cand level s).sr.extractLsb' 8 8 = s.sr.extractLsb' 8 8 := by
  have hupper : ∀ l : BitVec 3, (withIpl s.sr l).extractLsb' 8 8 = s.sr.extractLsb' 8 8 := fun l => by
    rw [withIpl, BitVec.extractLsb'_append_eq_of_le (by decide), BitVec.extractLsb'_append_eq_of_le (by decide)]
    exact BitVec.extractLsb'_eq_self
  cases cand <;> exact hupper _

/-- An entry changes SR in IPL<2:0> only, and SRL holds these: with SRL back, SR is back (R152, R239, R240). -/
theorem withSrl_enterPriority (cand : Candidate) (level : Nat) (s : State) :
    withSrl (enterPriority cand level s).sr s.srl = s.sr :=
  append_eq_word (enterPriority_sr_upper cand level s) rfl

theorem enterPriority_corcon (cand : Candidate) (level : Nat) (s : State) {b : Nat} (hb : b ≠ 3) :
    (enterPriority cand level s).corcon.getLsbD b = s.corcon.getLsbD b := by
  cases cand with
  | trap t => exact (getLsbD_setBit _ _ _ _).trans (if_neg fun h => hb h.1.symm)
  | irq i => rfl

/-- An entry changes CORCON in IPL3 only (R239). -/
theorem setBit_enterPriority (cand : Candidate) (level : Nat) (s : State) :
    setBit (enterPriority cand level s).corcon 3 s.ipl3 = s.corcon := by
  apply BitVec.eq_of_getLsbD_eq
  intro b hb
  rw [getLsbD_setBit]
  by_cases h3 : b = 3
  · subst h3
    exact if_pos ⟨rfl, hb⟩
  · rw [if_neg fun h => h3 h.1.symm, enterPriority_corcon cand level s h3]

theorem putW_getW (s : State) (r : WReg) : s.putW r (s.getW r) = s := by
  have h : s.w.set r.toNat (s.getW r) = s.w := Vector.set_getElem_self _
  rw [State.putW, h]

theorem cpuIpl_congr {s t : State} (hsr : t.sr = s.sr) (hcorcon : t.corcon = s.corcon) : t.cpuIpl = s.cpuIpl := by
  simp only [State.cpuIpl, State.ipl3, State.ipl, hsr, hcorcon]

/-! ### The state after an entry with room -/

/-- The state that entry with room for the frame leaves. -/
def entryState (cand : Candidate) (s : State) : State :=
  { loadVector cand (enterPriority cand (s.candidateLevel cand) (frameStored { s with bufferPc := s.pc, bufferSrl := s.srl })) with
    acceptAge := 0, disicnt := countDown 4 s.disicnt }

theorem takeException_entryState (cand : Candidate) {s : State} (h : s.stackRoom 2) :
    takeException cand s = .next (entryState cand s) := takeException_room cand h

theorem add_two_add_two (v : Word) : v + 2 + 2 = v + 4 := by bv_omega

section
variable (cand : Candidate) (s : State)

/-- Entry writes no working register but W15. -/
theorem entryState_w : (entryState cand s).w = (s.putW 15 (s.getW 15 + 4)).w := by
  have h : (frameStored { s with bufferPc := s.pc, bufferSrl := s.srl }).w =
      ((s.putW 15 (s.getW 15 + 2)).putW 15 (s.getW 15 + 2 + 2)).w := rfl
  rw [putW_putW_same, add_two_add_two] at h
  rw [← h]
  cases cand <;> rfl

theorem entryState_getW : (entryState cand s).getW 15 = s.getW 15 + 4 := by
  rw [State.getW, entryState_w]
  exact getW_putW_same s 15 _

theorem entryState_disicnt : (entryState cand s).disicnt = countDown 4 s.disicnt := rfl

theorem entryState_sr : withSrl (entryState cand s).sr s.srl = s.sr :=
  withSrl_enterPriority cand _ (frameStored { s with bufferPc := s.pc, bufferSrl := s.srl })

theorem entryState_corcon : setBit (entryState cand s).corcon 3 s.ipl3 = s.corcon :=
  setBit_enterPriority cand _ (frameStored { s with bufferPc := s.pc, bufferSrl := s.srl })

theorem entryState_dataWord (a : Word) : (entryState cand s).dataWord a =
    ((s.storeWord (s.getW 15) (s.pc.extractLsb' 0 16)).storeWord (s.getW 15 + 2) (frameHigh s.srl s.ipl3 s.pc)).dataWord a := by
  cases cand <;> rfl

/-- The second word of the frame stands above the first (R238). -/
theorem entryState_dataWord_high : (entryState cand s).dataWord (s.getW 15 + 2) = frameHigh s.srl s.ipl3 s.pc := by
  rw [entryState_dataWord, storeWord_dataWord_same]

variable {s} (h : s.stackRoom 2)
include h

theorem entryState_dataWord_low : (entryState cand s).dataWord (s.getW 15) = s.pc.extractLsb' 0 16 := by
  obtain ⟨-, -, hhi, -, -⟩ := h
  have hup : (s.getW 15 + 2).toNat = (s.getW 15).toNat + 2 := toNat_add_two (by omega)
  rw [entryState_dataWord, storeWord_dataWord_other _ _ _ (by omega) (by omega) (by omega), storeWord_dataWord_same]

/-- The stack that had room for the frame holds it after the entry. -/
theorem entryState_stackHolds : (entryState cand s).stackHolds 2 := by
  obtain ⟨heven, hlo, hhi, himp, hlim⟩ := h
  have hw : ((entryState cand s).getW 15).toNat = (s.getW 15).toNat + 4 := by
    rw [entryState_getW]
    bv_omega
  have hdevice : (entryState cand s).device = s.device := by cases cand <;> rfl
  have hlimit : (entryState cand s).splim = s.splim ∧ (entryState cand s).splimArmed = s.splimArmed := by
    cases cand <;> exact ⟨rfl, rfl⟩
  refine ⟨?_, by omega, fun k hk => ?_, fun harmed => ?_⟩
  · rw [entryState_getW, ← add_two_add_two]
    exact even_add_two (even_add_two heven)
  · rw [hdevice, hw, ← himp (1 - k) (by omega)]
    congr 1
    omega
  · rw [hlimit.2] at harmed
    have := hlim harmed
    rw [hlimit.1]
    omega

end

/-- Settles O21: the two words popped are the two words of the frame. -/
theorem entryThenRetfieRestores : Obligations.EntryThenRetfieRestores := by
  intro s cand hroom heven
  have htop : (entryState cand s).getW 15 - 2 = s.getW 15 + 2 := by rw [entryState_getW]; bv_omega
  have hbase : (entryState cand s).getW 15 - 4 = s.getW 15 := by rw [entryState_getW]; bv_omega
  have hretfie := exec_retfie_holds (entryState_stackHolds cand hroom)
  rw [htop, hbase, entryState_dataWord_high, entryState_dataWord_low cand hroom, frameHigh_srl, frameHigh_ipl3,
    frameAddress_frame _ _ heven, entryState_sr, entryState_corcon] at hretfie
  refine ⟨entryState cand s, _, takeException_entryState cand hroom, hretfie, rfl, rfl, rfl, cpuIpl_congr rfl rfl, ?_, ?_⟩
  · calc (entryState cand s).w.set 15 (s.getW 15)
        = ((s.putW 15 (s.getW 15 + 4)).putW 15 (s.getW 15)).w := by rw [entryState_w]; rfl
      _ = s.w := by rw [putW_putW_same, putW_getW]
  · show (BitVec.ofNat 14 ((entryState cand s).disicnt.toNat - 3)).toNat = _
    rw [← countDown_eq, countDown_toNat, entryState_disicnt, countDown_toNat]

end Sys2Proof.Machine
end

section
/-! PROOFS. DISICNT: what loads it, what counts it down, and which stores reach it. -/

namespace Sys2Proof.Machine

/-! ### What leaves DISICNT alone -/

/-- From `c` to `c'` nothing has written DISICNT, so that the end of the instruction counts it down (R151, R293); nor has the device, which
says where it stands. -/
structure CountKept (c c' : Cpu) : Prop where
  disicnt : c'.st.disicnt = c.st.disicnt
  written : c'.disiWritten = c.disiWritten
  device : c'.st.device = c.st.device

theorem CountKept.refl (c : Cpu) : CountKept c c := ⟨rfl, rfl, rfl⟩

theorem CountKept.trans {c c' c'' : Cpu} (h : CountKept c c') (h' : CountKept c' c'') : CountKept c c'' :=
  ⟨h'.disicnt.trans h.disicnt, h'.written.trans h.written, h'.device.trans h.device⟩

theorem update_countKept (c : Cpu) {f : State → State} (h : ∀ s, (f s).disicnt = s.disicnt ∧ (f s).device = s.device) :
    CountKept c (c.update f) :=
  have ⟨hdisicnt, hdevice⟩ := h c.st
  ⟨hdisicnt, rfl, hdevice⟩

/-- The state a device Reset leaves. -/
def IsReset (t : State) : Prop := ∃ cause u, t = deviceReset cause u

theorem isReset_deviceReset (cause : ResetCause) (s : State) : IsReset (deviceReset cause s) := ⟨cause, s, rfl⟩

/-- Every way a part of a step begun in `c` can end well: it leaves DISICNT alone, or the device was Reset. -/
def Run.KeepsCount {α : Type} (c : Cpu) (m : Run α) : Prop := m.Sat (fun _ c' => CountKept c c') IsReset

theorem keepsCount_ok {α : Type} {x : α} {c c' : Cpu} (h : CountKept c c') : (Run.ok x c').KeepsCount c := h

theorem Run.KeepsCount.after {α : Type} {c c' : Cpu} {m : Run α} (hm : m.KeepsCount c') (h : CountKept c c') : m.KeepsCount c :=
  sat_mono hm (fun _ _ => h.trans) fun _ => id

theorem Run.KeepsCount.bind {α β : Type} {c : Cpu} {m : Run α} {f : α → Cpu → Run β} (hm : m.KeepsCount c)
    (hf : ∀ x c', (f x c').KeepsCount c') : (m.bind f).KeepsCount c :=
  sat_bind hm fun x c' hc => (hf x c').after hc

/-! ### Traps and registers -/

theorem softTrap_countKept (t : Trap) (c : Cpu) : CountKept c (softTrap t c) := ⟨rfl, rfl, rfl⟩

theorem raise_keepsCount (t : Trap) (c : Cpu) : (raise t c).KeepsCount c := by
  unfold raise
  split
  · exact isReset_deviceReset _ _
  · exact keepsCount_ok ⟨rfl, rfl, rfl⟩

theorem addressError_keepsCount (c : Cpu) : (addressError c).KeepsCount c := (raise_keepsCount .addrErr _).after ⟨rfl, rfl, rfl⟩

theorem raiseAll_keepsCount (ts : List Trap) : ∀ c : Cpu, (raiseAll ts c).KeepsCount c := by
  induction ts with
  | nil => exact fun c => keepsCount_ok (.refl c)
  | cons t rest ih => exact fun c => (raise_keepsCount t c).bind fun _ => ih

theorem writeW_countKept (r : WReg) (v : Word) (c : Cpu) : CountKept c (writeW r v c) := by
  rcases writeW_cases r v c with h | h <;> rw [h] <;> exact ⟨rfl, rfl, rfl⟩

theorem pointerAdd_countKept (r : WReg) (d : Int) (c : Cpu) : CountKept c (pointerAdd r d c).2 := by
  rcases pointerAdd_cases r d c with h | h <;> rw [h]
  · exact .refl c
  · exact softTrap_countKept _ c

theorem writeIntcon1_keepsCount (mask v : Word) (c : Cpu) : (writeIntcon1 mask v c).KeepsCount c := by
  unfold writeIntcon1
  dsimp only
  split
  · exact (raiseAll_keepsCount _ _).after ⟨rfl, rfl, rfl⟩
  · exact keepsCount_ok ⟨rfl, rfl, rfl⟩

/-- A write of DISICNT while it is 0 has no effect, and no other register's write reaches it (R57, R293). -/
theorem writeReg_keepsCount (r : Reg) (whole : Bool) (mask v : Word) {c : Cpu} (h : c.st.disicnt ≠ 0 → r ≠ .disicnt) :
    (writeReg r whole mask v c).KeepsCount c := by
  cases r with
  | w i => exact keepsCount_ok (writeW_countKept _ _ c)
  | splim | sr | corcon | intcon2 | ifs k | iec k => exact keepsCount_ok ⟨rfl, rfl, rfl⟩
  | disicnt =>
    have hzero : c.st.disicnt = 0 := by_contra fun hne => h hne rfl
    rw [writeReg, if_pos hzero]
    exact keepsCount_ok (.refl c)
  | rcon | osccon =>
    simp only [writeReg]
    split <;> exact keepsCount_ok ⟨rfl, rfl, rfl⟩
  | intcon1 => exact writeIntcon1_keepsCount mask v c
  | ipc k =>
    simp only [writeReg]
    split
    · trivial
    · exact keepsCount_ok ⟨rfl, rfl, rfl⟩

/-! ### Data accesses and the stack -/

/-- Where DISICNT stands in data space (R4, R57). -/
def AtCounter (d : Device) (a : Word) : Prop := a.toNat < 0x0800 ∧ regAt d a.toNat = some .disicnt

/-- A word store at `a` leaves DISICNT alone: it is 0, or it stands elsewhere. -/
def Spares (c : Cpu) (a : Word) : Prop := c.st.disicnt ≠ 0 → ¬ AtCounter c.st.device a

theorem CountKept.spares {c c' : Cpu} (h : CountKept c c') {a : Word} (ha : Spares c a) : Spares c' a := by
  rwa [Spares, h.disicnt, h.device]

/-- What a read leaves alone: no working register is written either. -/
structure ReadKept (c c' : Cpu) : Prop extends CountKept c c' where
  w : c'.st.w = c.st.w

theorem ReadKept.refl (c : Cpu) : ReadKept c c := ⟨.refl c, rfl⟩

theorem ReadKept.trans {c c' c'' : Cpu} (h : ReadKept c c') (h' : ReadKept c' c'') : ReadKept c c'' :=
  ⟨h.toCountKept.trans h'.toCountKept, h'.w.trans h.w⟩

theorem stackLimit_readKept (b : Bool) (ea : Word) (c : Cpu) : ReadKept c (stackLimit b ea c) := by
  rcases stackLimit_cases b ea c with h | h <;> rw [h]
  · exact .refl c
  · exact ⟨softTrap_countKept _ c, rfl⟩

theorem readReg_readKept (r : Reg) (c : Cpu) : ReadKept c (readReg r c).2 := by
  rcases readReg_cases r c with h | h <;> rw [h]
  · exact .refl c
  · exact ⟨⟨rfl, rfl, rfl⟩, rfl⟩

theorem failedRead_readKept (c : Cpu) : (failedRead c).Sat (fun _ c' => ReadKept c c') IsReset :=
  sat_bind (P := fun _ c' => ReadKept c c')
    (addressError_sat c (fun _ => ⟨⟨rfl, rfl, rfl⟩, rfl⟩) fun _ => isReset_deviceReset _ _)
    fun _ _ hc => hc.trans ⟨⟨rfl, rfl, rfl⟩, rfl⟩

theorem readWord_readKept (ea : Word) (viaW15 : Bool) (c : Cpu) :
    (readWord ea viaW15 c).Sat (fun _ c' => ReadKept c c') IsReset := by
  refine sat_mono (P := fun _ c' => ReadKept (stackLimit viaW15 ea c) c') (Q := IsReset) ?_
    (fun _ _ => (stackLimit_readKept viaW15 ea c).trans) fun _ => id
  unfold readWord
  dsimp only
  split
  · exact failedRead_readKept _
  split
  · split
    · exact readReg_readKept _ _
    · trivial
  split
  · exact ReadKept.refl _
  · exact failedRead_readKept _

theorem readWord_keepsCount (ea : Word) (viaW15 : Bool) (c : Cpu) : (readWord ea viaW15 c).KeepsCount c :=
  sat_mono (readWord_readKept ea viaW15 c) (fun _ _ => ReadKept.toCountKept) fun _ => id

theorem writeWord_keepsCount (v : Word) (viaW15 : Bool) {ea : Word} {c : Cpu} (h : Spares c ea) :
    (writeWord ea v viaW15 c).KeepsCount c := by
  have hlimit := (stackLimit_readKept viaW15 ea c).toCountKept
  refine Run.KeepsCount.after (c' := stackLimit viaW15 ea c) ?_ hlimit
  unfold writeWord
  dsimp only
  split
  · exact addressError_keepsCount _
  split
  · exact keepsCount_ok (.refl _)
  split
  next hlo =>
    split
    next r hreg => exact writeReg_keepsCount _ _ _ _ fun hne hr => hlimit.spares h hne ⟨hlo, hr ▸ hreg⟩
    · trivial
  · split <;> exact keepsCount_ok ⟨rfl, rfl, rfl⟩

theorem push16_keepsCount (v : Word) {c : Cpu} (h : Spares c (c.st.getW 15)) : (push16 v c).KeepsCount c :=
  (writeWord_keepsCount v true h).bind fun _ c => keepsCount_ok ((pointerAdd_countKept 15 2 c).trans (writeW_countKept _ _ _))

theorem pop16_keepsCount (c : Cpu) : (pop16 c).KeepsCount c :=
  (readWord_keepsCount _ _ _).after ((pointerAdd_countKept 15 (-2) c).trans (writeW_countKept _ _ _))

/-! ### Operands -/

theorem pointer_countKept (m : AddrMode) (r : WReg) (size : Int) (c : Cpu) : CountKept c (pointer m r size c).2 := by
  cases m with
  | direct | indirect | unused6 | unused7 => exact .refl c
  | postDec | postInc | preDec | preInc => exact (pointerAdd_countKept _ _ c).trans (writeW_countKept _ _ _)

theorem upperAddress_countKept (viaW15 : Bool) (ea : Word) (c : Cpu) : CountKept c (upperAddress viaW15 ea c).2 := by
  unfold upperAddress
  dsimp only
  split
  · exact softTrap_countKept _ c
  · exact .refl c

theorem readOperand_keepsCount (m : AddrMode) (r : WReg) (c : Cpu) : (readOperand m r c).KeepsCount c := by
  cases m with
  | direct => exact keepsCount_ok (.refl c)
  | unused6 | unused7 => exact isReset_deviceReset _ _
  | indirect | postDec | postInc | preDec | preInc => exact (readWord_keepsCount _ _ _).after (pointer_countKept _ r 2 c)

theorem readDouble_keepsCount (ea : Word) (viaW15 : Bool) (c : Cpu) : (readDouble ea viaW15 c).KeepsCount c :=
  (readWord_keepsCount _ _ _).bind fun _ c =>
    ((readWord_keepsCount _ _ _).after (upperAddress_countKept viaW15 ea c)).bind fun _ c => keepsCount_ok (.refl c)

theorem readPair_keepsCount (m : AddrMode) (r : WReg) (c : Cpu) : (readPair m r c).KeepsCount c := by
  cases m with
  | direct => exact keepsCount_ok (.refl c)
  | unused6 | unused7 => exact isReset_deviceReset _ _
  | indirect | postDec | postInc | preDec | preInc => exact (readDouble_keepsCount _ _ _).after (pointer_countKept _ r 4 c)

theorem writePairRegs_countKept (k : BitVec 3) (lo hi : Word) (c : Cpu) : CountKept c (writePairRegs k lo hi c) :=
  (writeW_countKept _ _ c).trans (writeW_countKept _ _ _)

theorem writeDouble_keepsCount (lo hi : Word) (viaW15 : Bool) {ea : Word} {c : Cpu} (hlo : Spares c ea) (hhi : Spares c (ea + 2)) :
    (writeDouble ea lo hi viaW15 c).KeepsCount c :=
  sat_bind (writeWord_keepsCount lo viaW15 hlo) fun _ c1 hc =>
    have hupper := hc.trans (upperAddress_countKept viaW15 ea c1)
    (writeWord_keepsCount hi viaW15 (hupper.spares hhi)).after hupper

theorem writePair_keepsCount {m : AddrMode} {r : WReg} (lo hi : Word) {c : Cpu}
    (h : m.isIndirect = true → Spares c (pointer m r 4 c).1 ∧ Spares c ((pointer m r 4 c).1 + 2)) :
    (writePair m r lo hi c).KeepsCount c := by
  have hpointer := pointer_countKept m r 4 c
  cases m with
  | direct => exact keepsCount_ok (writePairRegs_countKept _ _ _ c)
  | unused6 | unused7 => exact isReset_deviceReset _ _
  | indirect | postDec | postInc | preDec | preInc =>
    obtain ⟨hlo, hhi⟩ := h rfl
    exact (writeDouble_keepsCount _ _ _ (hpointer.spares hlo) (hpointer.spares hhi)).after hpointer

/-! ### The end of an instruction -/

theorem movePc_countKept (d : Int) (c : Cpu) : CountKept c (movePc d c) := by
  rcases movePc_cases d c with ⟨p, h⟩ | h <;> rw [h] <;> exact ⟨rfl, rfl, rfl⟩

theorem skipIf_countKept (skip : Bool) (c : Cpu) : CountKept c (skipIf skip c) := by
  unfold skipIf
  split <;> exact movePc_countKept _ c

/-- What the end of `i`, begun in `s`, leaves: a device Reset's state, or DISICNT counted down by the cycles of `i` (R151). -/
def CountedDown (i : Instr) (s t : State) : Prop := IsReset t ∨ t.disicnt.toNat = s.disicnt.toNat - cycles i s

section
variable {i : Instr} {s t : State}

theorem countedDown_retire {c : Cpu} (h : CountKept (start s) c) : CountedDown i s (retire i s c).st := by
  refine .inr ?_
  rw [retire_counts h.written, countDown_toNat, h.disicnt, start_st]

theorem countedDown_of_next {c : Cpu} (h : (.next (retire i s c).st : Host.Outcome State Fault Refusal) = .next t)
    (hc : CountKept (start s) c) : CountedDown i s t :=
  Host.Outcome.next.inj h ▸ countedDown_retire hc

/-- A part of a step that ends the instruction. -/
def Run.Counts (i : Instr) (s : State) (m : Run Unit) : Prop := m.Sat (fun _ c => CountedDown i s c.st) (CountedDown i s)

/-- An earlier part, then the rest. -/
theorem Run.KeepsCount.bind_counts {α : Type} {m : Run α} {f : α → Cpu → Run Unit} (hm : m.KeepsCount (start s))
    (hf : ∀ x c, CountKept (start s) c → (f x c).Counts i s) : (m.bind f).Counts i s :=
  sat_bind (sat_mono hm (fun _ _ => id) fun _ => .inl) hf

/-- The last part of an instruction's work, then its end. -/
theorem Run.KeepsCount.bind_retire {α : Type} {m : Run α} {g : α → Cpu → Cpu} (hm : m.KeepsCount (start s))
    (hg : ∀ x c, CountKept c (g x c)) : (m.bind fun x c => .ok () (retire i s (g x c))).Counts i s :=
  hm.bind_counts fun x c hc => countedDown_retire (hc.trans (hg x c))

theorem Run.Counts.outcome {m : Run Unit} (hm : m.Counts i s) (h : m.outcome = .next t) : CountedDown i s t := outcome_sat h hm

end

/-! ### Instructions -/

section
variable {i : Instr} {s t : State}

theorem jumpLiteral_counts {c : Cpu} (hc : CountKept (start s) c) : (jumpLiteral i s c).Counts i s := by
  refine Run.KeepsCount.bind_retire (g := fun _ c => c) (Run.KeepsCount.after ?_ hc) fun _ => .refl
  split
  · exact keepsCount_ok (.refl c)
  · exact addressError_keepsCount c

theorem popFrame_counts {g : (hi lo : Word) → State → State}
    (hg : ∀ hi lo u, (g hi lo u).disicnt = u.disicnt ∧ (g hi lo u).device = u.device) :
    (popFrame (start s) fun hi lo c => retire i s (c.update (g hi lo))).Counts i s :=
  (pop16_keepsCount (start s)).bind_counts fun hi c hc =>
    ((pop16_keepsCount c).after hc).bind_retire fun lo c => update_countKept c (hg hi lo)

theorem startLoop_countedDown {count : Word} (h : startLoop i count s = .next t) : CountedDown i s t :=
  countedDown_of_next h ((movePc_countKept _ (start s)).trans (update_countKept _ fun _ => ⟨rfl, rfl⟩))

theorem accumulatorEvents_countKept (x : AccSel) (carry31 carry39 : Bool) (c : Cpu) :
    CountKept c (accumulatorEvents x carry31 carry39 c) := by
  unfold accumulatorEvents
  dsimp only
  split <;> exact ⟨rfl, rfl, rfl⟩

theorem shiftAccumulator_countedDown {x : AccSel} {k : Int} (h : shiftAccumulator i x k s = .next t) : CountedDown i s t := by
  refine countedDown_of_next h (.trans ?_ (movePc_countKept _ _))
  split
  · exact softTrap_countKept _ _
  · exact (accumulatorEvents_countKept x _ _ (start s)).trans ⟨putAcc_disicnt _ x _, rfl, putAcc_device _ x _⟩

theorem divideStep_countedDown {divisor : Word} (h : divideStep i divisor s = .next t) : CountedDown i s t := by
  refine countedDown_of_next h ((CountKept.trans ?_ (update_countKept _ fun u => ?_)).trans (movePc_countKept _ _))
  · split
    · exact softTrap_countKept _ _
    · exact .refl _
  · exact ⟨rfl, rfl⟩

end

/-- The instruction stores a word at the address of DISICNT: PUSH, POP, and either word of MOV.D. -/
def StoresAtCounter (i : Instr) (s : State) : Prop :=
  (∃ f, i = .push f ∧ AtCounter s.device (s.getW 15)) ∨ (∃ f, i = .pop f ∧ AtCounter s.device (f ++ 0#1)) ∨
    ∃ m r k, i = .movdStore m r k ∧ m.isIndirect = true ∧
      (AtCounter s.device (pointer m r 4 (start s)).1 ∨ AtCounter s.device ((pointer m r 4 (start s)).1 + 2))

/-- Every instruction but DISI that does not store at DISICNT's address counts DISICNT down by its cycles, or resets the device (R151). -/
theorem exec_countedDown {i : Instr} {s t : State} (hdisi : ∀ n, i ≠ .disi n) (hstore : s.disicnt ≠ 0 → ¬ StoresAtCounter i s)
    (h : exec i s = .next t) : CountedDown i s t := by
  cases i with
  | nop | gotoWord2 n => exact countedDown_of_next h (movePc_countKept _ _)
  | bra n => exact (jumpLiteral_counts (movePc_countKept _ _)).outcome h
  | goto target =>
    refine (jumpLiteral_counts (update_countKept (start s) (f := fun u => { u with pc := target ++ 0#1 }) ?_)).outcome h
    exact fun _ => ⟨rfl, rfl⟩
  | returnSub =>
    refine (popFrame_counts (g := fun hi lo u => { u with pc := frameAddress hi lo }) ?_).outcome h
    exact fun _ _ _ => ⟨rfl, rfl⟩
  | retfie => exact (popFrame_counts (g := restoreFrame) fun _ _ _ => ⟨rfl, rfl⟩).outcome h
  | repeatLit k | repeatReg r => exact startLoop_countedDown h
  | disi k => exact absurd rfl (hdisi k)
  | reset => exact .inl (Host.Outcome.next.inj h ▸ isReset_deviceReset .software s)
  | pwrsav mode => exact countedDown_of_next h ((movePc_countKept _ (start s)).trans (update_countKept _ fun _ => ⟨rfl, rfl⟩))
  | sftacLit acc k | sftacReg acc r => exact shiftAccumulator_countedDown h
  | push f =>
    have hread := readWord_readKept (fileAddress f) false (start s)
    refine Run.Counts.outcome (sat_bind (sat_mono hread (fun _ _ => id) fun _ => .inl) fun v c hc => ?_) h
    have htop : c.st.getW 15 = s.getW 15 := by rw [State.getW, hc.w]; rfl
    have hspares : Spares c (c.st.getW 15) := hc.spares (htop ▸ fun hne hat => hstore hne (.inl ⟨f, rfl, hat⟩))
    exact ((push16_keepsCount v hspares).after hc.toCountKept).bind_retire fun _ => movePc_countKept _
  | pop f =>
    have hspares : Spares (start s) (fileAddress f) := fun hne hat => hstore hne (.inr (.inl ⟨f, rfl, hat⟩))
    exact ((pop16_keepsCount _).bind_counts fun v c hc =>
      ((writeWord_keepsCount v false (hc.spares hspares)).after hc).bind_retire fun _ => movePc_countKept _).outcome h
  | movdLoad d p r =>
    exact ((readPair_keepsCount _ _ _).bind_retire fun v c => (writePairRegs_countKept d v.1 v.2 c).trans (movePc_countKept _ _)).outcome h
  | movdStore q d k =>
    refine ((writePair_keepsCount _ _ fun hm => ⟨?_, ?_⟩).bind_retire fun _ => movePc_countKept _).outcome h
    · exact fun hne hat => hstore hne (.inr (.inr ⟨q, d, k, rfl, hm, .inl hat⟩))
    · exact fun hne hat => hstore hne (.inr (.inr ⟨q, d, k, rfl, hm, .inr hat⟩))
  | btscF bit f | btssF bit f => exact ((readWord_keepsCount _ _ _).bind_retire fun _ => skipIf_countKept _).outcome h
  | btscW bit p r | btssW bit p r => exact ((readOperand_keepsCount _ _ _).bind_retire fun _ => skipIf_countKept _).outcome h
  | divS t v w r | divU t v w r | divF t r => exact divideStep_countedDown h

/-- No instruction writes program memory, nor does a Reset it makes (R114, R281). -/
theorem exec_prog {i : Instr} {s t : State} (h : exec i s = .next t) : t.prog = s.prog := by
  have hkeeps : Keeps s t ∨ ResetFrom s t := by
    by_cases hi : i = .retfie
    · subst hi
      exact execRetfie_keeps h
    · exact (exec_evolves hi h).imp_left Evolves.toKeeps
  rcases hkeeps with hk | hr
  · exact hk.prog
  · exact hr.prog

/-- DISI loads DISICNT, and its step does not count it down (R150). -/
theorem exec_disi (s : State) (n : BitVec 14) :
    ∃ p d, s.pcPast 1 p d ∧ exec (.disi n) s = .next { s.finished p d 0 with disicnt := n } := by
  obtain ⟨p, d, hp, hadvance⟩ := advance_pcPast 1 (start s)
  refine ⟨p, d, hp, ?_⟩
  show Host.Outcome.next ((advance 1 (start s)).update _).st = _
  rw [hadvance]
  rfl

theorem cycles_pos (i : Instr) (s : State) : 1 ≤ cycles i s := by
  unfold cycles
  split <;> omega

/-- Settles O34: a store at DISICNT's address while it is not 0 is the one way not to count down. -/
theorem disiLoadsAndCyclesCountDown : Obligations.DisiLoadsAndCyclesCountDown := by
  refine ⟨exec_disi, cycles_pos, fun s => if_pos rfl, fun i s t hdisi h => ?_⟩
  have hprog := exec_prog h
  by_cases hstore : s.disicnt ≠ 0 ∧ StoresAtCounter i s
  · exact .inr (.inl hstore)
  · rcases exec_countedDown hdisi (not_and.1 hstore) h with ⟨cause, u, rfl⟩ | hcount
    · exact .inl ⟨cause, u, rfl, hprog⟩
    · exact .inr (.inr hcount)

end Sys2Proof.Machine
end

section
/-! PROOFS. The instructions that only move the PC, set up a loop or change the run state. -/

namespace Sys2Proof.Machine

/-! ### Where the PC goes -/

/-- Inside program space the PC moves on by the instruction's words (R21). -/
theorem advance_inside {words : Nat} {c : Cpu} (h : c.st.pc.toNat + 2 * words < 2 ^ 23) :
    advance words c = c.update fun t => { t with pc := c.st.pc + BitVec.ofNat 23 (2 * words) } := by
  obtain ⟨p, d, hp, hadvance⟩ := advance_pcPast words c
  rw [State.pcPast, if_pos h] at hp
  obtain ⟨rfl, rfl⟩ := hp
  exact hadvance

/-- Past the end of program space the PC is the next free one (N12, log 17). -/
theorem advance_past {words : Nat} {c : Cpu} (h : ¬ c.st.pc.toNat + 2 * words < 2 ^ 23) :
    advance words c = c.update fun t => { t with pc := Config.freePc c.st.draws ++ 0#1, draws := t.draws + 1 } := by
  rw [advance, movePc, if_neg (by omega)]
  rfl

/-- Where the PC goes depends on the PC and the count of free values alone: parts of a step that agree in these move it to one place. -/
theorem exists_advance (s : State) (words draws : Nat) : ∃ p d, s.pcPast words p d ∧
    ∀ c : Cpu, c.st.pc = s.pc → c.st.draws = draws →
      advance words c = c.update fun t => { t with pc := p, draws := t.draws + d } := by
  unfold State.pcPast
  split
  next hin =>
    refine ⟨_, _, ⟨rfl, rfl⟩, fun c hpc _ => ?_⟩
    rw [← hpc] at hin ⊢
    exact advance_inside hin
  next hpast =>
    refine ⟨Config.freePc draws ++ 0#1, 1, ⟨getLsbD_append_zero _, rfl⟩, fun c hpc hdraws => ?_⟩
    rw [← hpc] at hpast
    rw [← hdraws]
    exact advance_past hpast

/-- The end of an instruction that has not written DISICNT, where the parts before it have kept the PC. -/
theorem exists_finished (i : Instr) (s : State) (words : Nat) {c : Cpu} (hpc : c.st.pc = s.pc) (h : c.disiWritten = false) :
    ∃ p d, s.pcPast words p d ∧ (retire i s (advance words c)).st = c.st.finished p d (cycles i s) := by
  obtain ⟨p, d, hp, hend⟩ := retire_advance_finished i s words h
  refine ⟨p, d, ?_, hend⟩
  rwa [State.pcPast, hpc] at hp

/-! ### NOP and PWRSAV -/

/-- Settles O26: both are the end of an instruction and nothing before it. -/
theorem nopAdvancesThePc : Obligations.NopAdvancesThePc := by
  intro s i hi
  obtain ⟨p, d, hp, hend⟩ := retire_advance_finished i s 1 (c := start s) rfl
  refine ⟨p, d, hp, ?_⟩
  rcases hi with rfl | ⟨n, rfl⟩
  · exact congrArg Host.Outcome.next hend
  · exact congrArg Host.Outcome.next hend

/-- The run state of a power-saving mode (R171). -/
def runStateOf : PowerMode → RunState
  | .sleep => .sleep
  | .idle => .idle

/-- PWRSAV enters the run state of its mode (R171). -/
theorem exec_pwrsav (mode : PowerMode) (s : State) : ∃ p d, s.pcPast 1 p d ∧
    exec (.pwrsav mode) s = .next { s.finished p d (cycles (.pwrsav mode) s) with runState := runStateOf mode } := by
  obtain ⟨p, d, hp, hadvance⟩ := advance_pcPast 1 (start s)
  refine ⟨p, d, hp, ?_⟩
  have hexec : exec (.pwrsav mode) s = .next (retire (.pwrsav mode) s
      ((advance 1 (start s)).update fun t => { t with runState := runStateOf mode })).st := by cases mode <;> rfl
  rw [hexec, hadvance, retire_counts rfl, countDown_eq]
  rfl

/-- Settles O35. -/
theorem pwrsavEntersSleepOrIdle : Obligations.PwrsavEntersSleepOrIdle :=
  fun s => ⟨exec_pwrsav .sleep s, exec_pwrsav .idle s⟩

/-! ### BRA, GOTO and RETURN -/

/-- A jump to an implemented target (R172). -/
theorem jumpLiteral_implemented {i : Instr} {s : State} {c : Cpu}
    (h : Device.progImplemented c.st.device c.st.pc.toNat = true) : jumpLiteral i s c = .ok () (retire i s c) := by
  rw [jumpLiteral, if_pos h, bind_ok]

/-- A jump, to `p`, leaves nothing but the PC moved and its cycles counted. -/
theorem retire_jump (i : Instr) (s : State) (p : PC) :
    (retire i s ((start s).update fun t => { t with pc := p })).st = s.finished p 0 (cycles i s) := by
  rw [retire_counts rfl, countDown_eq]
  rfl

/-- BRA inside program space: its offset counts words from the instruction after it (R173). -/
theorem movePc_bra {n : BitVec 16} {s : State} (h0 : 0 ≤ (s.pc.toNat : Int) + 2 + 2 * n.toInt)
    (h1 : (s.pc.toNat : Int) + 2 + 2 * n.toInt < 2 ^ 23) :
    movePc (2 + 2 * n.toInt) (start s) =
      (start s).update fun t => { t with pc := BitVec.ofInt 23 ((s.pc.toNat : Int) + 2 + 2 * n.toInt) } := by
  rw [Int.add_assoc] at h0 h1 ⊢
  exact movePc_inside h0 h1

/-- Settles O27. -/
theorem branchesReachTheirTarget : Obligations.BranchesReachTheirTarget := by
  refine fun s => ⟨fun n h0 h1 himp => ?_, fun n himp => ?_⟩
  · have htarget : (BitVec.ofInt 23 ((s.pc.toNat : Int) + 2 + 2 * n.toInt)).toNat =
        ((s.pc.toNat : Int) + 2 + 2 * n.toInt).toNat := by
      rw [BitVec.toNat_ofInt]
      omega
    rw [← htarget] at himp
    show execBra n s = _
    rw [execBra, movePc_bra h0 h1, jumpLiteral_implemented himp, outcome_ok, retire_jump]
  · have htarget : (n ++ 0#1).toNat = 2 * n.toNat := by
      rw [BitVec.toNat_append]
      simp [Nat.shiftLeft_eq, Nat.mul_comm]
    rw [← htarget] at himp
    show execGoto n s = _
    rw [execGoto, jumpLiteral_implemented himp, outcome_ok, retire_jump]

/-- Settles O29: two pops, the first of the upper word. -/
theorem returnPopsThePc : Obligations.ReturnPopsThePc := by
  intro s h
  show execReturn s = _
  rw [execReturn, popFrame_holds (c := start s) _ h, outcome_ok, retire_counts rfl, countDown_eq]
  simp only [update_st, start_st, getW_putW_same, putW_putW_same, sub_two_sub_two]
  rfl

/-! ### REPEAT -/

/-- A REPEAT of `count` sets up the loop at the PC past it; of SR only RA changes (R176, log 14). -/
theorem startLoop_eq (i : Instr) (count : Word) (s : State) : ∃ p d, s.pcPast 1 p d ∧
    startLoop i count s = .next { s.finished p d (cycles i s) with
      loop := some { target := p, left := count, started := false }, sr := setBit s.sr 4 (decide (count ≠ 0)) } := by
  obtain ⟨p, d, hp, hadvance⟩ := advance_pcPast 1 (start s)
  refine ⟨p, d, hp, ?_⟩
  rw [startLoop, hadvance, retire_counts rfl, countDown_eq]
  rfl

/-- Bit 4 of SR is RA; the others stay when it is set or cleared (R22). -/
theorem getLsbD_setBit_four (v : Word) (x : Bool) (b : Nat) : (setBit v 4 x).getLsbD b = if b = 4 then x else v.getLsbD b := by
  rw [getLsbD_setBit, if_congr (show 4 = b ∧ b < 16 ↔ b = 4 by omega) rfl rfl]

/-- Settles O31: the two forms differ in their count alone. -/
theorem repeatSetsUpItsLoop : Obligations.RepeatSetsUpItsLoop := by
  intro s i count hi
  obtain ⟨p, d, hp, hloop⟩ := startLoop_eq i count s
  refine ⟨p, d, _, hp, ?_, getLsbD_setBit_four s.sr _⟩
  rcases hi with ⟨k, rfl, rfl⟩ | ⟨r, rfl, rfl⟩
  · exact hloop
  · exact hloop

end Sys2Proof.Machine
end

section
/-! PROOFS. The REPEAT loop: when it goes on, when it is over, and how often a repeated NOP runs. -/

namespace Sys2Proof.Machine

/-! ### The loop at the PC -/

/-- The loop's rule where a loop is live that the instruction has left as it was, and its last iteration has run (R176). -/
theorem continueLoop_last {s t : State} {l : RepeatLoop} (hlive : s.loopLive = some l) (ht : t.loop = some l) (hleft : l.left = 0) :
    continueLoop s t = { t with loop := none } := by
  simp only [continueLoop, hlive, ht, hleft, if_true]

/-- The same where iterations are left (R176). -/
theorem continueLoop_more {s t : State} {l : RepeatLoop} (hlive : s.loopLive = some l) (ht : t.loop = some l) (hleft : l.left ≠ 0) :
    continueLoop s t = { t with
      loop := some { l with left := l.left - 1, started := true }
      sr := setBit t.sr 4 (decide (l.left ≠ 1))
      pc := l.target } := by
  simp only [continueLoop, hlive, ht, if_true, if_neg hleft]

/-- With RA as the loop left it, the loop at the PC is live (log 14). -/
theorem loopLive_of_ra {s : State} {l : RepeatLoop} (hloop : s.loop = some l) (htarget : l.target = s.pc)
    (hra : s.ra = decide (l.left ≠ 0)) : s.loopLive = some l := by
  have hlive : s.ra = true ∨ l.left = 0 := by
    rw [hra, decide_eq_true_eq]
    exact (em (l.left = 0)).symm
  simp only [State.loopLive, hloop]
  exact if_pos ⟨htarget, hlive⟩

/-- No loop is live where there is none, where it stands elsewhere, or where RA says that it is over (log 14). -/
theorem loopLive_eq_none_iff (s : State) :
    s.loopLive = none ↔ ∀ l, s.loop = some l → l.target ≠ s.pc ∨ (s.ra = false ∧ l.left ≠ 0) := by
  cases hloop : s.loop with
  | none => simp [State.loopLive, hloop]
  | some l =>
    simp only [State.loopLive, hloop, Option.some.injEq, forall_eq', ite_eq_right_iff, reduceCtorEq, imp_false,
      not_and_or, not_or, Bool.not_eq_true, ne_eq]

theorem firstIteration_of_live {s : State} {l : RepeatLoop} (h : s.loopLive = some l) : s.firstIteration = !l.started := by
  rw [State.firstIteration, h]

/-- The words left after one more iteration: RA is for the iteration after the next. -/
theorem decide_ne_one (n : Word) : decide (n ≠ 1) = decide (n - 1 ≠ 0) :=
  decide_eq_decide.2 (not_congr (by bv_omega))

/-- After an iteration with more to come the loop is live at its target, and begun: RA is what its count says. -/
theorem loopLive_continueLoop {s t : State} {l : RepeatLoop} (hlive : s.loopLive = some l) (ht : t.loop = some l)
    (hleft : l.left ≠ 0) :
    (continueLoop s t).loopLive = some { l with left := l.left - 1, started := true } := by
  rw [continueLoop_more hlive ht hleft]
  refine loopLive_of_ra rfl rfl ?_
  show (setBit t.sr 4 _).getLsbD 4 = _
  rw [getLsbD_setBit_four, if_pos rfl, decide_ne_one]

/-- Settles O32: the loop's rule, and the three ways not to have a live loop. -/
theorem repeatLoopGoesOnWhileIterationsAreLeft : Obligations.RepeatLoopGoesOnWhileIterationsAreLeft := by
  refine ⟨fun s t l hloop htarget hra ht => ?_, fun s => ⟨loopLive_eq_none_iff s, fun hnone => ⟨?_, fun t => ?_⟩⟩⟩
  · have hlive := loopLive_of_ra hloop htarget hra
    refine ⟨firstIteration_of_live hlive, continueLoop_last hlive ht, fun hleft => ?_⟩
    have hfirst := firstIteration_of_live (loopLive_continueLoop hlive ht hleft)
    rw [continueLoop_more hlive ht hleft] at hfirst ⊢
    rw [htarget] at hfirst ⊢
    refine ⟨rfl, ?_, fun b hb => ?_, hfirst, rfl⟩
    · exact (getLsbD_setBit_four t.sr _ 4).trans (if_pos rfl)
    · exact (getLsbD_setBit_four t.sr _ b).trans (if_neg hb)
  · rw [State.firstIteration, hnone]
  · rw [continueLoop, hnone]

/-! ### A repeated NOP -/

/-- A NOP stands at the PC, under a loop with `n` iterations left after the next, and no exception can be taken. -/
structure RepeatedNop (s : State) (n : Word) : Prop where
  inputs : s.inputs = []
  running : s.runState = .running
  traps : ∀ τ, s.trapFlag τ = false
  enables : ∀ i, s.irqEnable i = false
  loop : ∃ started, s.loop = some { target := s.pc, left := n, started := started }
  ra : s.ra = decide (n ≠ 0)
  inside : s.pc.toNat + 2 < 2 ^ 23
  implemented : Device.progImplemented s.device s.pc.toNat = true
  listed : s.progListed s.pc.toNat = true
  nop : decode (s.progRead s.pc.toNat) (s.progRead (s.pc.toNat + 2)) = .ok .nop

/-- With no source eligible none wins the arbitration (R234). -/
theorem winner_eq_none {s : State} (h : ∀ i, s.eligible i = false) : s.winner = none := by
  rw [State.winner, List.filter_eq_nil_iff.2 fun i _ => by simp [h i]]
  rfl

/-- With no trap flagged and no source enabled there is no candidate (R211, R234). -/
theorem candidate_eq_none {s : State} (htraps : ∀ τ, s.trapFlag τ = false) (henables : ∀ i, s.irqEnable i = false) :
    s.candidate = none := by
  have htrap : s.pendingTrap = none := by simp [State.pendingTrap, State.trapPending, htraps]
  rw [State.candidate, htrap, winner_eq_none fun i => by simp [State.eligible, henables i]]
  rfl

theorem finished_loop (s : State) (p : PC) (d n : Nat) : (s.finished p d n).loop = s.loop := rfl

/-- What a NOP leaves inside program space (R183). -/
theorem execNop_inside {s : State} (h : s.pc.toNat + 2 < 2 ^ 23) :
    exec .nop s = .next (s.finished (s.pc + 2) 0 (cycles .nop s)) := by
  show Host.Outcome.next (retire .nop s (advance 1 (start s))).st = _
  rw [advance_inside h, retire_jump]
  rfl

section
variable {s : State} {n : Word} (h : RepeatedNop s n)
include h

/-- The instruction that runs is the NOP, and then comes the loop's rule (R176). -/
theorem RepeatedNop.runInstruction_eq :
    runInstruction s = .next (continueLoop s (s.finished (s.pc + 2) 0 (cycles .nop s))) := by
  have hfetch : s.fetch = .next .nop := by simp only [State.fetch, h.listed, if_true, h.nop]
  simp only [runInstruction, h.implemented, if_true, hfetch, execNop_inside h.inside, afterIteration]

/-- A boundary resets the acceptance age, of which the repetition knows nothing (R235). -/
theorem RepeatedNop.atBoundary : RepeatedNop { s with acceptAge := 0 } n :=
  ⟨h.inputs, h.running, h.traps, h.enables, h.loop, h.ra, h.inside, h.implemented, h.listed, h.nop⟩

/-- A step of the machine runs the instruction: there is nothing to take (R235). -/
theorem RepeatedNop.step_eq : step s = runInstruction { s with acceptAge := 0 } := by
  have hdecision : s.decision = .run { s with acceptAge := 0 } := by
    simp only [State.decision, h.running, candidate_eq_none h.traps h.enables]
  simp only [step, h.inputs, machineStep, hdecision]

/-- The loop is live while its NOP stands at the PC. -/
theorem RepeatedNop.loopLive : ∃ started, s.loopLive = some { target := s.pc, left := n, started := started } := by
  obtain ⟨started, hloop⟩ := h.loop
  exact ⟨started, loopLive_of_ra hloop rfl h.ra⟩

/-- While iterations are left the instruction is one of them, and the NOP is repeated one time less. -/
theorem RepeatedNop.runInstruction_more (hn : n ≠ 0) :
    ∃ t, runInstruction s = .next t ∧ RepeatedNop t (n - 1) ∧ t.pc = s.pc ∧ t.w = s.w ∧ t.data = s.data := by
  obtain ⟨started, hlive⟩ := h.loopLive
  rw [h.runInstruction_eq, continueLoop_more hlive ((finished_loop s _ _ _).trans (loopLive_loop hlive)) hn]
  refine ⟨_, rfl, ⟨h.inputs, h.running, h.traps, h.enables, ⟨true, rfl⟩, ?_, h.inside, h.implemented, h.listed, h.nop⟩,
    rfl, rfl, rfl⟩
  rw [← decide_ne_one]
  exact (getLsbD_setBit_four s.sr _ 4).trans (if_pos rfl)

theorem RepeatedNop.step_more (hn : n ≠ 0) :
    ∃ t, step s = .next t ∧ RepeatedNop t (n - 1) ∧ t.pc = s.pc ∧ t.w = s.w ∧ t.data = s.data := by
  rw [h.step_eq]
  exact h.atBoundary.runInstruction_more hn

end

/-- The last iteration ends the loop, and the instruction after the NOP is next. -/
theorem RepeatedNop.runInstruction_last {s : State} (h : RepeatedNop s 0) : ∃ t, runInstruction s = .next t ∧ t.pc = s.pc + 2 ∧
    t.ra = false ∧ t.loop = none ∧ t.w = s.w ∧ t.data = s.data := by
  obtain ⟨started, hlive⟩ := h.loopLive
  rw [h.runInstruction_eq, continueLoop_last hlive ((finished_loop s _ _ _).trans (loopLive_loop hlive)) rfl]
  exact ⟨_, rfl, rfl, h.ra, rfl, rfl, rfl⟩

theorem RepeatedNop.step_last {s : State} (h : RepeatedNop s 0) : ∃ t, step s = .next t ∧ t.pc = s.pc + 2 ∧ t.ra = false ∧
    t.loop = none ∧ t.w = s.w ∧ t.data = s.data := by
  rw [h.step_eq]
  exact h.atBoundary.runInstruction_last

/-- A run of `k + 1` steps is a step and a run of `k`. -/
theorem run_succ {s t : State} (h : step s = .next t) (k : Nat) : Sys2Proof.core.run (k + 1) s = Sys2Proof.core.run k t := by
  have hcore : Sys2Proof.core.step s = .next t := h
  simp only [Host.Core.run, hcore]

/-- While iterations are left, `m` steps are `m` iterations. -/
theorem RepeatedNop.run_iterations {s : State} {n : Word} (h : RepeatedNop s n) {m : Nat} (hm : m ≤ n.toNat) :
    ∃ t : State, Sys2Proof.core.run m s = .next t ∧ RepeatedNop t (n - BitVec.ofNat 16 m) ∧ t.pc = s.pc ∧ t.w = s.w ∧
      t.data = s.data := by
  induction m generalizing s n with
  | zero => exact ⟨s, rfl, (BitVec.sub_zero n).symm ▸ h, rfl, rfl, rfl⟩
  | succ m ih =>
    have hn : n ≠ 0 := by rintro rfl; simp at hm
    obtain ⟨u, hstep, hu, hpc, hw, hdata⟩ := h.step_more hn
    obtain ⟨t, hrun, ht, hpc', hw', hdata'⟩ := ih hu (by bv_omega)
    have hcount : n - 1 - BitVec.ofNat 16 m = n - BitVec.ofNat 16 (m + 1) := by bv_omega
    exact ⟨t, (run_succ hstep m).trans hrun, hcount ▸ ht, hpc'.trans hpc, hw'.trans hw, hdata'.trans hdata⟩

/-- The iterations left and the last one. -/
theorem RepeatedNop.run_all {k : Nat} {s : State} {n : Word} (h : RepeatedNop s n) (hk : n.toNat = k) :
    ∃ t : State, Sys2Proof.core.run (k + 1) s = .next t ∧ t.pc = s.pc + 2 ∧ t.ra = false ∧ t.loop = none ∧ t.w = s.w ∧
      t.data = s.data := by
  induction k generalizing s n with
  | zero =>
    obtain rfl : n = 0 := BitVec.eq_of_toNat_eq hk
    obtain ⟨t, hstep, hend⟩ := h.step_last
    exact ⟨t, run_succ hstep 0, hend⟩
  | succ k ih =>
    have hn : n ≠ 0 := by rintro rfl; simp at hk
    obtain ⟨u, hstep, hu, hpc, hw, hdata⟩ := h.step_more hn
    obtain ⟨t, hrun, hend⟩ := ih hu (by bv_omega)
    rw [hpc, hw, hdata] at hend
    exact ⟨t, (run_succ hstep _).trans hrun, hend⟩

/-- Settles O33, by induction on the iterations left. -/
theorem repeatRunsNopCountPlusOneTimes : Obligations.RepeatRunsNopCountPlusOneTimes := by
  intro s n b hinputs hrunning htraps henables hloop hra hinside himp hlisted hnop
  have h : RepeatedNop s n := ⟨hinputs, hrunning, htraps, henables, ⟨b, hloop⟩, hra, hinside, himp, hlisted, hnop⟩
  refine ⟨fun m _ hm => ?_, h.run_all rfl⟩
  obtain ⟨t, hrun, ht, hpc, hw, hdata⟩ := h.run_iterations hm
  have hlt := n.isLt
  refine ⟨t, hrun, hpc, ht.ra.trans (decide_eq_decide.2 (not_congr ?_)), hw, hdata⟩
  rw [sub_eq_zero, ← BitVec.toNat_inj, BitVec.toNat_ofNat, Nat.mod_eq_of_lt (by omega)]
  exact eq_comm

end Sys2Proof.Machine
end

section
/-! PROOFS. SFTAC and the divides: the arithmetic error, the flags of SR, and the bits of a shifted accumulator. -/

namespace Sys2Proof.Machine

/-! ### The arithmetic error -/

/-- INTCON1 where the arithmetic error is raised under a condition: MATHERR is its bit 4 (R212). -/
theorem getLsbD_ite_setBit_four (v : Word) (raised : Bool) (b : Nat) :
    (if raised then setBit v 4 true else v).getLsbD b = if b = 4 then v.getLsbD 4 || raised else v.getLsbD b := by
  cases raised with
  | false =>
    by_cases hb : b = 4 <;> simp [hb]
  | true =>
    rw [Bool.or_true]
    exact getLsbD_setBit_four v true b

/-! ### SFTAC beyond 16 -/

theorem exec_sftac {s : State} {i : Instr} {x : AccSel} {k : BitVec 6}
    (hi : i = .sftacLit x k ∨ ∃ r, i = .sftacReg x r ∧ k = (s.getW r).setWidth 6) : exec i s = shiftAccumulator i x k.toInt s := by
  rcases hi with rfl | ⟨r, rfl, rfl⟩
  · rfl
  · rfl

/-- Settles O36. -/
theorem sftacBeyondSixteenRaisesMathErr : Obligations.SftacBeyondSixteenRaisesMathErr := by
  intro s i x k hi hk
  obtain ⟨p, d, hp, hend⟩ := retire_advance_finished i s 1 (c := softTrap .mathErr (start s)) rfl
  refine ⟨p, d, hp, ?_⟩
  rw [exec_sftac hi, shiftAccumulator, if_pos hk, hend]
  rfl

/-! ### What an operation on an accumulator does to the flags -/

/-- OA or OB and the arithmetic error, by the carries (R186, R218). -/
theorem accumulatorEvents_eq (x : AccSel) (carry31 carry39 : Bool) (c : Cpu) :
    accumulatorEvents x carry31 carry39 c = c.update fun s => { s with
      sr := setBit s.sr (ovfBit x) (s.overflow x carry31)
      intcon1 := if s.overflowTraps x carry31 carry39 then setBit s.intcon1 4 true else s.intcon1 } := by
  simp only [accumulatorEvents, Cpu.update]
  cases c.st.overflowTraps x carry31 carry39 <;> rfl

theorem ovfBit_lt (x : AccSel) : ovfBit x < 16 := by cases x <;> decide

/-- OA and OB are none of the flags left open. -/
theorem ovfBit_ne (x : AccSel) : ovfBit x ≠ satBit x ∧ ovfBit x ≠ 11 ∧ ovfBit x ≠ 10 := by cases x <;> decide

/-- The flags left open are SA or SB, OAB and SAB (log 12). -/
theorem getLsbD_freeDspFlags (sr : Word) (x : AccSel) (draw : Nat) {b : Nat} (hsat : b ≠ satBit x) (h11 : b ≠ 11) (h10 : b ≠ 10) :
    (freeDspFlags sr x draw).getLsbD b = sr.getLsbD b := by
  simp only [freeDspFlags, getLsbD_setBit, Ne.symm hsat, Ne.symm h11, Ne.symm h10, false_and, if_false]

/-- SR after an operation on an accumulator: OA or OB as given. -/
theorem getLsbD_accSr_ovf (sr : Word) (x : AccSel) (ovf : Bool) (draw : Nat) :
    (freeDspFlags (setBit sr (ovfBit x) ovf) x draw).getLsbD (ovfBit x) = ovf := by
  obtain ⟨hsat, h11, h10⟩ := ovfBit_ne x
  rw [getLsbD_freeDspFlags _ _ _ hsat h11 h10, getLsbD_setBit, if_pos ⟨rfl, ovfBit_lt x⟩]

/-- Every other flag stays. -/
theorem getLsbD_accSr_other (sr : Word) (x : AccSel) (ovf : Bool) (draw : Nat) {b : Nat} (hovf : b ≠ ovfBit x)
    (hsat : b ≠ satBit x) (h11 : b ≠ 11) (h10 : b ≠ 10) :
    (freeDspFlags (setBit sr (ovfBit x) ovf) x draw).getLsbD b = sr.getLsbD b := by
  rw [getLsbD_freeDspFlags _ _ _ hsat h11 h10, getLsbD_setBit, if_neg fun h => hovf h.1.symm]

/-! ### SFTAC within 16 -/

/-- The state a shift of at most 16 leaves before the PC moves. -/
def shifted (x : AccSel) (k : Int) (s : State) : State :=
  { s.putAcc x (shiftResult s x k) with
    sr := freeDspFlags (setBit s.sr (ovfBit x) (s.overflow x (shiftCarries 32 (s.getAcc x) k))) x (s.draws + 1)
    intcon1 := if s.overflowTraps x (shiftCarries 32 (s.getAcc x) k) (shiftCarries 40 (s.getAcc x) k) then setBit s.intcon1 4 true
      else s.intcon1
    draws := s.draws + 4 }

theorem shiftAccumulator_within (i : Instr) (x : AccSel) {k : Int} (s : State) (hlo : -16 ≤ k) (hhi : k ≤ 16) :
    shiftAccumulator i x k s = .next (retire i s (advance 1 (start (shifted x k s)))).st := by
  rw [shiftAccumulator, if_neg (by omega), accumulatorEvents_eq]
  cases x <;> rfl

theorem shifted_frame (x : AccSel) (k : Int) (s : State) : shifted x k s = { s with
    accA := (shifted x k s).accA, accB := (shifted x k s).accB, sr := (shifted x k s).sr, intcon1 := (shifted x k s).intcon1,
    draws := s.draws + 4 } := by
  cases x <;> rfl

theorem shifted_getAcc_same (x : AccSel) (k : Int) (s : State) : (shifted x k s).getAcc x = shiftResult s x k := by
  cases x <;> rfl

theorem shifted_getAcc_other {x y : AccSel} (h : y ≠ x) (k : Int) (s : State) : (shifted x k s).getAcc y = s.getAcc y := by
  cases x with
  | a => cases y with
    | a => exact absurd rfl h
    | b => rfl
  | b => cases y with
    | a => rfl
    | b => exact absurd rfl h

/-- A left shift carries out where its exact product does not fit (log 12). -/
theorem shiftCarries_iff (n : Nat) (v : Acc) (k : Int) : shiftCarries n v k = true ↔
    k < 0 ∧ (v.toInt * 2 ^ (-k).toNat < -(2 ^ (n - 1)) ∨ 2 ^ (n - 1) ≤ v.toInt * 2 ^ (-k).toNat) := by
  simp only [shiftCarries, Bool.and_eq_true, Bool.or_eq_true, decide_eq_true_eq]

/-- The result is the shifted bits where no saturation replaces it. -/
theorem shiftResult_unsaturated {s : State} {x : AccSel} {k : Int}
    (h31 : ¬ (s.sat31 x = true ∧ shiftCarries 32 (s.getAcc x) k = true))
    (h39 : ¬ (s.sat39 x = true ∧ shiftCarries 40 (s.getAcc x) k = true)) :
    shiftResult s x k = shiftAcc (s.getAcc x) (Config.freeAcc s.draws) k := by
  simp only [shiftResult, Bool.or_eq_true, Bool.and_eq_true, if_neg (not_or.2 ⟨h31, h39⟩)]

/-- A right shift moves each bit down; the bits from 40 on are vacated ones (R175). -/
theorem getLsbD_shiftAcc_right (v fill : Acc) {k : Int} {b : Nat} (hk : 0 ≤ k) (hb : b + k.toNat < 40) :
    (shiftAcc v fill k).getLsbD b = v.getLsbD (b + k.toNat) := by
  have hb40 : b < 40 := by omega
  rw [shiftAcc, if_pos hk]
  simp only [BitVec.getLsbD_or, BitVec.getLsbD_and, BitVec.getLsbD_not, BitVec.getLsbD_ushiftRight, BitVec.getLsbD_allOnes,
    Nat.add_comm k.toNat b, hb, hb40, decide_true, Bool.not_true, Bool.and_false, Bool.or_false]

/-- A left shift moves each bit up; the bits below the count are vacated ones (R175). -/
theorem getLsbD_shiftAcc_left (v fill : Acc) {k : Int} {b : Nat} (hk : k < 0) (hb : (-k).toNat ≤ b) (hb40 : b < 40) :
    (shiftAcc v fill k).getLsbD b = v.getLsbD (b - (-k).toNat) := by
  have hvacated : decide (b < (-k).toNat) = false := decide_eq_false (by omega)
  have hinside : decide (b - (-k).toNat < 40) = true := decide_eq_true (by omega)
  rw [shiftAcc, if_neg (by omega)]
  simp only [BitVec.getLsbD_or, BitVec.getLsbD_and, BitVec.getLsbD_not, BitVec.getLsbD_shiftLeft, BitVec.getLsbD_allOnes,
    hb40, hvacated, hinside, decide_true, Bool.not_true, Bool.not_false, Bool.and_true, Bool.true_and, Bool.and_false, Bool.or_false]

theorem getLsbD_shifted_intcon1 (x : AccSel) (k : Int) (s : State) (b : Nat) : (shifted x k s).intcon1.getLsbD b =
    if b = 4 then s.intcon1.getLsbD 4 || s.overflowTraps x (shiftCarries 32 (s.getAcc x) k) (shiftCarries 40 (s.getAcc x) k)
    else s.intcon1.getLsbD b :=
  getLsbD_ite_setBit_four s.intcon1 _ b

/-- What raises the arithmetic error (R218), in terms of the carries. -/
theorem overflowTraps_iff (s : State) (x : AccSel) (carry31 carry39 : Bool) : s.overflowTraps x carry31 carry39 = true ↔
    (carry31 = true ∧ s.sat31 x = false ∧ s.ovfTrapEnabled x = true) ∨
      (carry39 = true ∧ s.sat31 x = false ∧ s.sat39 x = false ∧ s.covte = true) := by
  simp only [State.overflowTraps, State.overflow, State.catastrophic, Bool.or_eq_true, Bool.and_eq_true, Bool.not_eq_true',
    Bool.or_eq_false_iff, and_assoc]

/-- The flag of an accumulator's overflow after a shift (R218). -/
theorem shifted_ovf (x : AccSel) (k : Int) (s : State) : (shifted x k s).sr.getLsbD (ovfBit x) = true ↔
    shiftCarries 32 (s.getAcc x) k = true ∧ s.sat31 x = false := by
  rw [← Bool.not_eq_true', ← Bool.and_eq_true]
  exact Eq.congr_left (getLsbD_accSr_ovf s.sr x _ _)

/-- A shift's end: the PC past it changes nothing of what the shift has left. -/
theorem finished_shifted (x : AccSel) (k : Int) (s : State) (p : PC) (d n : Nat) : (shifted x k s).finished p d n =
    { s.finished p (d + 4) n with
      accA := ((shifted x k s).finished p d n).accA, accB := ((shifted x k s).finished p d n).accB
      sr := ((shifted x k s).finished p d n).sr, intcon1 := ((shifted x k s).finished p d n).intcon1 } := by
  rw [Nat.add_comm d 4, State.finished, State.finished, ← Nat.add_assoc]
  cases x <;> rfl

/-- Settles O37: the carries of the statement are the model's, and the rest is bit by bit. -/
theorem sftacWithinSixteenShifts : Obligations.SftacWithinSixteenShifts := by
  intro s i x k hi hlo hhi exact carry31 carry39
  have hc31 : shiftCarries 32 (s.getAcc x) k.toInt = true ↔ carry31 := shiftCarries_iff 32 _ _
  have hc39 : shiftCarries 40 (s.getAcc x) k.toInt = true ↔ carry39 := shiftCarries_iff 40 _ _
  obtain ⟨p, d, hp, hend⟩ := exists_finished i s 1 (c := start (shifted x k.toInt s)) (by rw [start_st, shifted_frame]) rfl
  refine ⟨p, d, (shifted x k.toInt s).finished p d (cycles i s), hp, ?_, finished_shifted x _ s p d _,
    fun y hy => shifted_getAcc_other hy k.toInt s, fun h31 h39 b hb => ?_, (shifted_ovf x _ s).trans (and_congr_left' hc31),
    fun b hovf hsat h11 h10 => getLsbD_accSr_other _ _ _ _ hovf hsat h11 h10, ?_, fun b hb => ?_⟩
  · rw [exec_sftac hi, shiftAccumulator_within i x s hlo hhi, hend, start_st]
  · have hacc : ((shifted x k.toInt s).finished p d (cycles i s)).getAcc x =
        shiftAcc (s.getAcc x) (Config.freeAcc s.draws) k.toInt := by
      rw [← shiftResult_unsaturated (by rwa [hc31]) (by rwa [hc39])]
      exact shifted_getAcc_same x k.toInt s
    rw [hacc]
    exact ⟨fun hk hin => getLsbD_shiftAcc_right _ _ hk hin, fun hk hin => getLsbD_shiftAcc_left _ _ hk hin hb⟩
  · show (shifted x k.toInt s).intcon1.getLsbD 4 = true ↔ _
    rw [getLsbD_shifted_intcon1, if_pos rfl, Bool.or_eq_true, overflowTraps_iff, hc31, hc39]
    rfl
  · exact (getLsbD_shifted_intcon1 x k.toInt s b).trans (if_neg hb)

/-! ### The dummy operation -/

/-- The dummy operation has no carry: OA or OB cleared and nothing raised (R186, R226). -/
theorem dummyAccumulatorOperation_eq (x : AccSel) (s : State) : dummyAccumulatorOperation x (start s) =
    start { s with sr := freeDspFlags (setBit s.sr (ovfBit x) false) x s.draws, draws := s.draws + 3 } := by
  rw [dummyAccumulatorOperation, accumulatorEvents_eq]
  rfl

/-! ### Divides -/

theorem exec_divide {s : State} {i : Instr} {divisor : Word}
    (hi : (∃ t v w r, i = .divS t v w r ∧ divisor = s.getW r) ∨ (∃ t v w r, i = .divU t v w r ∧ divisor = s.getW r) ∨
      (∃ t r, i = .divF t r ∧ divisor = s.getW r)) : exec i s = divideStep i divisor s := by
  rcases hi with ⟨t, v, w, r, rfl, rfl⟩ | ⟨t, v, w, r, rfl, rfl⟩ | ⟨t, r, rfl, rfl⟩
  · rfl
  · rfl
  · rfl

/-- The state an iteration of a divide leaves before the PC moves: the divisor is checked in the first alone (R177, R219). -/
def divided (divisor : Word) (s : State) : State :=
  { (s.putW 0 (Config.freeWord s.draws)).putW 1 (Config.freeWord (s.draws + 1)) with
    sr := freeMcuFlags s.sr (s.draws + 2)
    intcon1 := if s.firstIteration && decide (divisor = 0) then setBit s.intcon1 4 true else s.intcon1
    draws := s.draws + 6 }

theorem divideStep_eq (i : Instr) (divisor : Word) (s : State) :
    divideStep i divisor s = .next (retire i s (advance 1 (start (divided divisor s)))).st := by
  simp only [divideStep, divided]
  cases s.firstIteration && decide (divisor = 0) <;> rfl

/-- A divide's end: the PC past it changes nothing of what the divide has left. -/
theorem finished_divided (divisor : Word) (s : State) (p : PC) (d n : Nat) : (divided divisor s).finished p d n =
    { s.finished p (d + 6) n with
      w := ((divided divisor s).finished p d n).w, sr := ((divided divisor s).finished p d n).sr
      intcon1 := ((divided divisor s).finished p d n).intcon1 } := by
  rw [Nat.add_comm d 6, State.finished, State.finished, ← Nat.add_assoc]
  rfl

theorem getLsbD_divided_intcon1 (divisor : Word) (s : State) (b : Nat) : (divided divisor s).intcon1.getLsbD b =
    if b = 4 then s.intcon1.getLsbD 4 || (s.firstIteration && decide (divisor = 0)) else s.intcon1.getLsbD b :=
  getLsbD_ite_setBit_four s.intcon1 _ b

/-- N, OV, Z and C are the four lowest bits of SR: those above stay (R177). -/
theorem getLsbD_freeMcuFlags (sr : Word) (draw : Nat) {b : Nat} (hb : 4 ≤ b) : (freeMcuFlags sr draw).getLsbD b = sr.getLsbD b := by
  simp only [freeMcuFlags, getLsbD_setBit]
  rw [if_neg (by omega), if_neg (by omega), if_neg (by omega), if_neg (by omega)]

theorem divided_getW (divisor : Word) (s : State) {r : WReg} (h0 : r ≠ 0) (h1 : r ≠ 1) : (divided divisor s).getW r = s.getW r :=
  (getW_putW_other _ _ h1).trans (getW_putW_other _ _ h0)

/-- Settles O38. -/
theorem divideIterationChecksItsDivisor : Obligations.DivideIterationChecksItsDivisor := by
  intro s i divisor hi
  obtain ⟨p, d, hp, hend⟩ := exists_finished i s 1 (c := start (divided divisor s)) rfl rfl
  refine ⟨p, d, (divided divisor s).finished p d (cycles i s), hp, ?_, finished_divided divisor s p d _, ?_, fun b hb => ?_,
    fun r h0 h1 => divided_getW divisor s h0 h1, fun b hb => getLsbD_freeMcuFlags _ _ hb⟩
  · rw [exec_divide hi, divideStep_eq, hend, start_st]
  · show (divided divisor s).intcon1.getLsbD 4 = true ↔ _
    rw [getLsbD_divided_intcon1, if_pos rfl, Bool.or_eq_true, Bool.and_eq_true, decide_eq_true_eq]
    rfl
  · exact (getLsbD_divided_intcon1 divisor s b).trans (if_neg hb)

end Sys2Proof.Machine
end

section
/-! PROOFS. PUSH and POP: what they store in data memory, and what a popped word does to each register. -/

namespace Sys2Proof.Machine

/-! ### PUSH -/

/-- PUSH of a word that can be read, with room (R181): W15 two higher, and the word stored. -/
theorem exec_push_room {s : State} {f : BitVec 15} {v : Word} {e : Nat} (hroom : s.stackRoom 1)
    (hread : s.readableAs (f ++ 0#1) v e) : exec (.push f) s = .next (retire (.push f) s (advance 1
      (start { (s.storeWord (s.getW 15) v).putW 15 (s.getW 15 + 2) with draws := s.draws + e }))).st := by
  obtain ⟨heven, hlo, hhi, himp, hlim⟩ := hroom
  show execPush f s = _
  rw [execPush, fileAddress, readWord_readable hread, bind_ok, push16_room (c := start { s with draws := s.draws + e }) rfl heven hlo
    hhi (himp 0 (by omega)) fun ha => Nat.le_of_add_le_add_right (hlim ha)]
  rfl

/-- Settles O39. -/
theorem pushStoresTheWord : Obligations.PushStoresTheWord := by
  intro s f v e hroom hread
  obtain ⟨p, d, hp, hend⟩ := exists_finished (.push f) s 1
    (c := start { (s.storeWord (s.getW 15) v).putW 15 (s.getW 15 + 2) with draws := s.draws + e }) rfl rfl
  refine ⟨p, d, _, hp, (exec_push_room hroom hread).trans (congrArg _ hend), ?_, storeWord_dataWord_same s (s.getW 15) v,
    fun a ha => storeWord_dataByte_other s (s.getW 15) v (by omega) (by omega)⟩
  rw [State.finished, State.finished, ← Nat.add_assoc]
  rfl

/-! ### Stores to data memory -/

/-- The state after a store to data memory, which has no effect where it is not implemented (D27). -/
def State.stored (s : State) (a v : Word) : State :=
  if Device.dataImplemented s.device a.toNat then s.storeWord a v else s

theorem stored_frame (s : State) (a v : Word) : s.stored a v = { s with data := (s.stored a v).data } := by
  unfold State.stored
  split
  · rfl
  · rfl

theorem stored_data_of_absent {s : State} {a : Word} (v : Word) (h : Device.dataImplemented s.device a.toNat = false) :
    (s.stored a v).data = s.data := by
  rw [State.stored, h]
  rfl

theorem stored_dataWord_same {s : State} {a : Word} (v : Word) (h : Device.dataImplemented s.device a.toNat = true) :
    (s.stored a v).dataWord a = v := by
  rw [State.stored, if_pos h, storeWord_dataWord_same]

/-- The bytes of a word that is implemented are the ones a store to it writes. -/
theorem stored_dataByte_other {s : State} {a : Word} (v : Word) {x : Nat}
    (h : Device.dataImplemented s.device a.toNat = true → x < a.toNat ∨ a.toNat + 2 ≤ x) :
    (s.stored a v).dataByte x = s.dataByte x := by
  unfold State.stored
  split
  next himp =>
    have := h himp
    exact storeWord_dataByte_other s a v (by omega) (by omega)
  · rfl

/-- A word write at or above 0x0800, after the stack limit check (R215, D27). -/
theorem writeWord_stored {ea v : Word} {b : Bool} {c : Cpu} (heven : ea.getLsbD 0 = false) (hlo : 0x0800 ≤ ea.toNat)
    (hin : c.inhibit = false) : writeWord ea v b c = .ok () ((stackLimit b ea c).update fun s => s.stored ea v) := by
  simp only [writeWord, heven, Bool.false_eq_true, if_false, stackLimit_inhibit, hin, if_neg (not_lt_0800 hlo), State.stored]
  cases h : Device.dataImplemented (stackLimit b ea c).st.device ea.toNat with
  | true => simp only [Cpu.update, h, if_true]
  | false => simp only [Cpu.update, h, Bool.false_eq_true, if_false]

/-- POP to an address of data memory (R182). -/
theorem exec_pop_stored {s : State} {f : BitVec 15} (hstack : s.stackHolds 1) (hlo : 0x0800 ≤ (f ++ 0#1).toNat) :
    exec (.pop f) s = .next (retire (.pop f) s (advance 1 (start ((popped s).stored (f ++ 0#1) (poppedWord s))))).st := by
  rw [exec_pop_holds hstack, fileAddress, writeWord_stored (getLsbD_append_zero f) hlo rfl]
  rfl

/-- Settles O41. -/
theorem popStoresToMemory : Obligations.PopStoresToMemory := by
  intro s f hstack hlo
  have hframe := stored_frame (popped s) (f ++ 0#1) (poppedWord s)
  obtain ⟨p, d, hp, hend⟩ := exists_finished (.pop f) s 1 (c := start ((popped s).stored (f ++ 0#1) (poppedWord s)))
    (by rw [start_st, hframe]; rfl) rfl
  refine ⟨p, d, _, hp, (exec_pop_stored hstack hlo).trans (congrArg _ hend), ?_,
    fun habsent => stored_data_of_absent (s := popped s) _ habsent,
    fun himp => ⟨stored_dataWord_same (s := popped s) _ himp, fun a ha => stored_dataByte_other (s := popped s) _ fun _ => ha⟩⟩
  rw [start_st, hframe]
  rfl

/-! ### POP to a register -/

/-- POP to a register is the software write of the popped word (R182). -/
theorem exec_pop_reg {s : State} {f : BitVec 15} {r : Reg} (hstack : s.stackHolds 1) (hlo : (f ++ 0#1).toNat < 0x0800)
    (hreg : regAt s.device (f ++ 0#1).toNat = some r) :
    exec (.pop f) s = ((writeReg r true 0xFFFF (poppedWord s) (start (popped s))).bind
      fun _ c => .ok () (retire (.pop f) s (advance 1 c))).outcome := by
  rw [exec_pop_holds hstack, fileAddress, writeWord_reg (b := false) (c := start (popped s)) (getLsbD_append_zero f) hlo hreg nofun rfl]

/-- The free values that a word written to a register draws: one for RCON and one for OSCCON (log 18). -/
def Reg.writeDraws (r : Reg) : Nat := if r = .rcon ∨ r = .osccon then 1 else 0

/-- POP to a register, whichever it is: what the write leaves, the PC past it and the cycles counted. -/
theorem exists_pop_reg {s : State} {f : BitVec 15} {r : Reg} (hstack : s.stackHolds 1) (hlo : (f ++ 0#1).toNat < 0x0800)
    (hreg : regAt s.device (f ++ 0#1).toNat = some r) : ∃ p d, s.pcPast 1 p d ∧
      ∀ c : Cpu, writeReg r true 0xFFFF (poppedWord s) (start (popped s)) = .ok () c → c.st.pc = s.pc →
        c.st.draws = s.draws + r.writeDraws → exec (.pop f) s = .next (if c.disiWritten
          then { c.st with pc := p, draws := c.st.draws + d } else c.st.finished p d (cycles (.pop f) s)) := by
  obtain ⟨p, d, hp, hadvance⟩ := exists_advance s 1 (s.draws + r.writeDraws)
  refine ⟨p, d, hp, fun c hwrite hpc hdraws => ?_⟩
  rw [exec_pop_reg hstack hlo hreg, hwrite, bind_ok, outcome_ok, hadvance c hpc hdraws]
  cases hdisi : c.disiWritten with
  | true => rw [retire_written (c := c.update _) hdisi]; rfl
  | false => rw [retire_counts (c := c.update _) hdisi, countDown_eq]; rfl

/-! ### The bits a written word leaves -/

theorem getLsbD_FFFF (b : Nat) : (0xFFFF : Word).getLsbD b = decide (b < 16) := Nat.testBit_two_pow_sub_one 16 b

/-- A word write replaces every bit. -/
theorem mergeBits_word (old new : Word) : mergeBits 0xFFFF old new = new := by
  have hall : (0xFFFF : Word) = BitVec.allOnes 16 := rfl
  rw [mergeBits, hall, BitVec.not_allOnes, BitVec.and_zero, BitVec.zero_or, BitVec.and_allOnes]

/-- A word written under the access codes (R6). -/
theorem getLsbD_accessWrite_word (rw rc old new : Word) (b : Nat) : (accessWrite rw rc 0xFFFF old new).getLsbD b =
    if rw.getLsbD b then new.getLsbD b else if rc.getLsbD b then old.getLsbD b && new.getLsbD b else old.getLsbD b := by
  rw [getLsbD_accessWrite, getLsbD_FFFF]
  by_cases hb : b < 16
  · rw [decide_eq_true hb, if_pos rfl]
  · simp [hb, BitVec.getLsbD_of_ge _ b (Nat.le_of_not_lt hb)]

/-- SR after a written word (R22, R27). -/
theorem getLsbD_srWrite (nstdis : Bool) (old v : Word) (b : Nat) :
    (accessWrite (if nstdis then 0x000F else 0x00EF) 0x3400 0xFFFF old v).getLsbD b =
      if b < 4 ∨ (5 ≤ b ∧ b ≤ 7 ∧ nstdis = false) then v.getLsbD b
      else if b = 10 ∨ b = 12 ∨ b = 13 then old.getLsbD b && v.getLsbD b
      else old.getLsbD b := by
  rw [getLsbD_accessWrite_word]
  by_cases hb : b < 16
  · cases nstdis <;> interval_cases b <;> simp
  · simp [BitVec.getLsbD_of_ge _ b (Nat.le_of_not_lt hb)]

/-- CORCON after a written word: IPL3 can only be cleared (R24, R25). -/
theorem getLsbD_corconWrite (old v : Word) (b : Nat) : (accessWrite 0x18F7 0x0008 0xFFFF old v).getLsbD b =
    if b ≤ 2 ∨ (4 ≤ b ∧ b ≤ 7) ∨ b = 11 ∨ b = 12 then v.getLsbD b
    else if b = 3 then old.getLsbD b && v.getLsbD b else old.getLsbD b := by
  rw [getLsbD_accessWrite_word]
  by_cases hb : b < 16
  · interval_cases b <;> simp
  · simp [BitVec.getLsbD_of_ge _ b (Nat.le_of_not_lt hb)]

/-- INTCON2 after a written word (R30). -/
theorem getLsbD_intcon2Write (old v : Word) (b : Nat) : (accessWrite 0x801F 0 0xFFFF old v).getLsbD b =
    if b ≤ 4 ∨ b = 15 then v.getLsbD b else old.getLsbD b := by
  rw [getLsbD_accessWrite_word]
  by_cases hb : b < 16
  · interval_cases b <;> simp
  · simp [BitVec.getLsbD_of_ge _ b (Nat.le_of_not_lt hb)]

/-- IFSk and IECk after a written word: a source the device lacks keeps its bit (R35, R39, D12). -/
theorem getLsbD_irqWrite (s : State) (k : Nat) (old v : Word) {b : Nat} (hb : b < 16) :
    (accessWrite (irqMask s.device k) 0 0xFFFF old v).getLsbD b = if s.irqPresent (16 * k + b) then v.getLsbD b else old.getLsbD b := by
  have hmask : (irqMask s.device k).getLsbD b = s.irqPresent (16 * k + b) := by simp [irqMask, State.irqPresent, hb]
  have hclear : (0 : Word).getLsbD b = false := BitVec.getLsbD_zero
  rw [getLsbD_accessWrite_word, hmask, hclear, if_neg Bool.false_ne_true]

/-! ### The registers a word is written to whole -/

theorem writeReg_w (i : WReg) (v : Word) (c : Cpu) : writeReg (.w i) true 0xFFFF v c = .ok () (writeW i v c) := by
  rw [writeReg, mergeBits_word]

theorem writeReg_splim (v : Word) (c : Cpu) : writeReg .splim true 0xFFFF v c =
    .ok () (c.update fun s => { s with splim := v, splimArmed := true }) := by
  simp only [writeReg, mergeBits_word, Bool.or_true]

theorem writeReg_disicnt_zero (v : Word) {c : Cpu} (h : c.st.disicnt = 0) : writeReg .disicnt true 0xFFFF v c = .ok () c := by
  rw [writeReg, if_pos h]

theorem writeReg_disicnt (v : Word) {c : Cpu} (h : c.st.disicnt ≠ 0) : writeReg .disicnt true 0xFFFF v c =
    .ok () { c.update (fun s => { s with disicnt := v.setWidth 14 }) with disiWritten := true } := by
  simp only [writeReg, if_neg h, mergeBits_word]

/-- A register write with its check, in one state update (R214). -/
theorem writeW_stackError (r : WReg) (v : Word) (s : State) :
    writeW r v (start s) = start ((s.putW r v).stackError (r = 15 ∧ v.toNat < 0x0800)) := by
  rw [writeW, ite_softTrap_stkErr]
  rfl

/-- Settles O42. -/
theorem popWritesSr : Obligations.PopWritesSr := by
  intro s f hstack hlo hreg
  obtain ⟨p, d, hp, hpop⟩ := exists_pop_reg hstack hlo hreg
  exact ⟨p, d, _, hp, hpop _ rfl rfl rfl, getLsbD_srWrite s.nstdis s.sr (poppedWord s)⟩

/-- Settles O43, register by register. -/
theorem popWritesRegisters : Obligations.PopWritesRegisters := by
  intro s f r hstack hlo hreg v u n
  obtain ⟨p, d, hp, hpop⟩ := exists_pop_reg hstack hlo hreg
  have hdraw : u.draws + 1 + d = u.draws + (d + 1) := by omega
  refine ⟨p, d, hp, ?corcon, ?intcon2, ?ifs, ?iec, ?splim, ?disicntZero, ?disicnt, ?w, ?w15, ?rcon, ?osccon⟩
  case corcon =>
    rintro rfl
    exact ⟨_, hpop _ rfl rfl rfl, getLsbD_corconWrite s.corcon v⟩
  case intcon2 =>
    rintro rfl
    exact ⟨_, hpop _ rfl rfl rfl, getLsbD_intcon2Write s.intcon2 v⟩
  case ifs =>
    rintro k rfl
    exact ⟨_, hpop _ rfl rfl rfl, fun b hb => getLsbD_irqWrite s k (s.ifs.get k) v hb⟩
  case iec =>
    rintro k rfl
    exact ⟨_, hpop _ rfl rfl rfl, fun b hb => getLsbD_irqWrite s k (s.iec.get k) v hb⟩
  case splim =>
    rintro rfl
    exact hpop _ (writeReg_splim v _) rfl rfl
  case disicntZero =>
    rintro rfl hzero
    have hcount : (u.finished p d n).disicnt = 0 := by
      show BitVec.ofNat 14 (s.disicnt.toNat - n) = 0
      rw [hzero]
      exact congrArg _ (Nat.zero_sub n)
    rw [← hcount]
    exact hpop _ (writeReg_disicnt_zero v hzero) rfl rfl
  case disicnt =>
    rintro rfl hcount
    exact hpop _ (writeReg_disicnt v hcount) rfl rfl
  case w =>
    rintro k rfl hk
    exact hpop _ ((writeReg_w k v _).trans (congrArg _ (writeW_plain _ fun h => absurd h hk))) rfl rfl
  case w15 =>
    rintro rfl
    have hput : u.putW 15 v = s.putW 15 v := putW_putW_same s 15 _ v
    have hwrite := (writeReg_w 15 v (start u)).trans (congrArg _ (writeW_stackError 15 v u))
    rw [hput, stackError_congr _ (show (15 : WReg) = 15 ∧ v.toNat < 0x0800 ↔ v.toNat < 0x0800 from and_iff_right rfl)] at hwrite
    exact hpop _ hwrite rfl rfl
  case rcon =>
    rintro rfl
    refine ⟨v.getLsbD 15 && (s.trapr || Config.freeBit s.draws), ?_, fun h => ?_, fun h htrapr => ?_⟩
    · rw [State.finished, ← hdraw]
      exact hpop _ rfl rfl rfl
    · rw [h, Bool.false_and]
    · rw [h, htrapr]
      rfl
  case osccon =>
    rintro rfl
    refine ⟨Config.freeBit s.draws, ?_⟩
    rw [State.finished, ← hdraw]
    exact hpop _ rfl rfl rfl

end Sys2Proof.Machine
end

section
/-! PROOFS. MOV.D: the words a pointer meets, read and stored, with the stack checks through W15. -/

namespace Sys2Proof.Machine

/-! ### Checks through W15 -/

theorem stackError_stackError (s : State) (p q : Prop) [Decidable p] [Decidable q] :
    (s.stackError p).stackError q = s.stackError (p ∨ q) := by
  by_cases hp : p <;> by_cases hq : q <;> simp [State.stackError, hp, hq, BitVec.or_assoc]

/-- A sum raises the stack error where it leaves data space (R216). -/
theorem pointerAdd_start (r : WReg) (d : Int) (s : State) : (pointerAdd r d (start s)).2 =
    start (s.stackError (r = 15 ∧ (((s.getW r).toNat : Int) + d < 0 ∨ 0xFFFF < ((s.getW r).toNat : Int) + d))) := by
  rw [pointerAdd, ite_softTrap_stkErr]
  rfl

/-- A pointer's modification changes its register and the flags of INTCON1, and nothing else. -/
theorem pointer_eq_start (m : AddrMode) (r : WReg) (size : Int) (s : State) :
    ∃ w x, (pointer m r size (start s)).2 = start { s with w := w, intcon1 := x } := by
  have hmoved (v : Word) (d : Int) : ∃ w x, writeW r v (pointerAdd r d (start s)).2 = start { s with w := w, intcon1 := x } := by
    rw [pointerAdd_start, writeW_stackError]
    exact ⟨_, _, rfl⟩
  cases m with
  | direct | indirect | unused6 | unused7 => exact ⟨s.w, s.intcon1, rfl⟩
  | postDec | postInc | preDec | preInc => exact hmoved _ _

theorem pointer_frame (m : AddrMode) (r : WReg) (size : Int) (s : State) :
    ∃ w x, (pointer m r size (start s)).2.st = { s with w := w, intcon1 := x } := by
  obtain ⟨w, x, h⟩ := pointer_eq_start m r size s
  exact ⟨w, x, congrArg Cpu.st h⟩

/-- An access after a pointer's modification starts as a step of its own would. -/
theorem pointer_start (m : AddrMode) (r : WReg) (size : Int) (s : State) :
    (pointer m r size (start s)).2 = start (pointer m r size (start s)).2.st := by
  obtain ⟨w, x, h⟩ := pointer_eq_start m r size s
  rw [h, start_st]

/-- The stack limit check of an access through `r` (R215). -/
theorem stackLimit_start (r : WReg) (ea : Word) (u : State) {bad : Prop} [Decidable bad] (hbad : u.pastLimit r ea ↔ bad) :
    stackLimit (decide (r = 15)) ea (start u) = start (u.stackError bad) := by
  have hcheck : (decide (r = 15) && u.splimArmed && decide (u.splim < ea)) = true ↔ bad := by
    rw [← hbad, Bool.and_eq_true, Bool.and_eq_true, decide_eq_true_eq, decide_eq_true_eq, and_assoc]
    rfl
  rw [stackLimit, ite_softTrap_stkErr]
  exact congrArg start (stackError_congr u hcheck)

/-- The address of the upper word of an even address, and its wrap through W15 (R216). -/
theorem upperAddress_start (r : WReg) {ea : Word} (heven : ea.getLsbD 0 = false) (u : State) :
    upperAddress (decide (r = 15)) ea (start u) = (ea + 2, start (u.stackError (r = 15 ∧ ea = 0xFFFE))) := by
  have hodd : ea ≠ 0xFFFF := by
    rintro rfl
    exact absurd heven (by decide)
  have hcheck : (decide (r = 15) && decide (ea = 0xFFFE ∨ ea = 0xFFFF)) = true ↔ r = 15 ∧ ea = 0xFFFE := by
    rw [Bool.and_eq_true, decide_eq_true_eq, decide_eq_true_eq, or_iff_left hodd]
  rw [upperAddress, ite_softTrap_stkErr]
  exact congrArg (fun t => (ea + 2, start t)) (stackError_congr u hcheck)

/-! ### Pairs -/

theorem pairLow_ne (k : BitVec 3) : pairLow k ≠ 15 := by revert k; decide
theorem pairHigh_eq_iff (k : BitVec 3) : pairHigh k = 15 ↔ k = 7 := by revert k; decide

/-- A pair written: W15 is the upper register of the last one (R214). -/
theorem writePairRegs_start (k : BitVec 3) (lo hi : Word) (u : State) : writePairRegs k lo hi (start u) =
    start (((u.putW (k ++ 0#1) lo).putW (k ++ 1#1) hi).stackError (k = 7 ∧ hi.toNat < 0x0800)) := by
  have hlow : writeW (pairLow k) lo (start u) = start (u.putW (k ++ 0#1) lo) := writeW_plain _ fun h => absurd h (pairLow_ne k)
  rw [writePairRegs, hlow, writeW_stackError]
  exact congrArg start (stackError_congr _ (and_congr_left' (pairHigh_eq_iff k)))

/-! ### MOV.D into a pair -/

/-- A word read through `r` that can be read once the limit check is made. -/
theorem readWord_checked {u : State} {r : WReg} {ea v : Word} {d : Nat} {bad : Prop} [Decidable bad]
    (hbad : u.pastLimit r ea ↔ bad) (h : (u.stackError bad).readableAs ea v d) :
    readWord ea (decide (r = 15)) (start u) = .ok v (start { u.stackError bad with draws := u.draws + d }) := by
  have hcheck : readWord ea (decide (r = 15)) (start u) = readWord ea false (stackLimit (decide (r = 15)) ea (start u)) := rfl
  rw [hcheck, stackLimit_start r ea u hbad, readWord_readable h]
  rfl

theorem readableAs_even {s : State} {ea v : Word} {d : Nat} (h : s.readableAs ea v d) : ea.getLsbD 0 = false := by
  rcases h with ⟨heven, -⟩ | ⟨heven, -⟩
  · exact heven
  · exact heven

/-- The upper word of a double word, where it can be read once its checks are made. -/
theorem readUpper_checked {u : State} {r : WReg} {ea v : Word} {d : Nat} {past : Prop} [Decidable past] (heven : ea.getLsbD 0 = false)
    (hpast : u.pastLimit r (ea + 2) ↔ past) (h : (u.stackError ((r = 15 ∧ ea = 0xFFFE) ∨ past)).readableAs (ea + 2) v d) :
    readWord (upperAddress (decide (r = 15)) ea (start u)).1 (decide (r = 15)) (upperAddress (decide (r = 15)) ea (start u)).2 =
      .ok v (start { u.stackError ((r = 15 ∧ ea = 0xFFFE) ∨ past) with draws := u.draws + d }) := by
  rw [← stackError_stackError] at h ⊢
  rw [upperAddress_start r heven]
  exact readWord_checked hpast h

/-- Two words read through `r`, the upper one after the checks of its own address. -/
theorem readDouble_checked {u u1 : State} {r : WReg} {ea lo hi : Word} {e1 e2 : Nat} {bad past : Prop} [Decidable bad] [Decidable past]
    (hbad : u.pastLimit r ea ↔ bad) (hlo : (u.stackError bad).readableAs ea lo e1)
    (hu1 : u1 = { u.stackError bad with draws := u.draws + e1 }) (hpast : u1.pastLimit r (ea + 2) ↔ past)
    (hhi : (u1.stackError ((r = 15 ∧ ea = 0xFFFE) ∨ past)).readableAs (ea + 2) hi e2) :
    readDouble ea (decide (r = 15)) (start u) =
      .ok (lo, hi) (start { u1.stackError ((r = 15 ∧ ea = 0xFFFE) ∨ past) with draws := u1.draws + e2 }) := by
  rw [readDouble, readWord_checked hbad hlo, ← hu1, bind_ok, readUpper_checked (readableAs_even hlo) hpast hhi, bind_ok]

/-- Free values drawn before a pair is written count with those drawn after it. -/
theorem pairLoaded_finished (u : State) (a b : WReg) (lo hi : Word) (bad : Prop) [Decidable bad] (p : PC) (d e n : Nat) :
    ((((({ u with draws := u.draws + d } : State).putW a lo).putW b hi).stackError bad).finished p e n) =
      ((((u.putW a lo).putW b hi).stackError bad).finished p (d + e) n) := by
  rw [State.finished, State.finished, ← Nat.add_assoc]
  rfl

/-- Settles O46. -/
theorem movdLoadsThePair : Obligations.MovdLoadsThePair := by
  constructor
  · intro s d r lo hi
    obtain ⟨p, e, hp, hend⟩ := exists_finished (.movdLoad d .direct r) s 1 (c := start
      (((s.putW (d ++ 0#1) lo).putW (d ++ 1#1) hi).stackError (d = 7 ∧ hi.toNat < 0x0800))) rfl rfl
    refine ⟨p, e, hp, ?_⟩
    show Host.Outcome.next (retire _ s (advance 1 (writePairRegs d lo hi (start s)))).st = _
    rw [writePairRegs_start, hend]
    rfl
  · intro s d m r lo hi e1 e2 hm ea u u1 u2 hlo hhi
    obtain ⟨w, x, hu⟩ : ∃ w x, u = { s with w := w, intcon1 := x } := pointer_frame m r 4 s
    have hpc : u.pc = s.pc := by rw [hu]
    have hlimit (a : Word) : u.pastLimit r a ↔ s.pastLimit r a := by rw [hu]
    have hread : readPair m r (start s) = .ok (lo, hi) (start { u2 with draws := u2.draws + e2 }) := by
      rw [readPair_indirect hm, pointer_start]
      exact readDouble_checked (hlimit ea) hlo rfl (hlimit (ea + 2)) hhi
    obtain ⟨p, e, hp, hend⟩ := exists_finished (.movdLoad d m r) s 1 (c := start (((({ u2 with draws := u2.draws + e2 } : State).putW
      (d ++ 0#1) lo).putW (d ++ 1#1) hi).stackError (d = 7 ∧ hi.toNat < 0x0800))) hpc rfl
    refine ⟨p, e, hp, ?_⟩
    show execMovdLoad d m r s = _
    rw [execMovdLoad, hread, bind_ok, outcome_ok, writePairRegs_start, hend, start_st, pairLoaded_finished]

end Sys2Proof.Machine
end

section
/-! PROOFS. MOV.D from a pair: into a pair, into data memory, and into registers below 0x0800. -/

namespace Sys2Proof.Machine

/-! ### Stores to data memory through a pointer -/

/-- The stack error flag and data memory are apart. -/
theorem stored_stackError (s : State) (a v : Word) (bad : Prop) [Decidable bad] :
    (s.stackError bad).stored a v = (s.stored a v).stackError bad := by
  unfold State.stored
  rw [stackError_device]
  split
  · rfl
  · rfl

theorem stored_device (s : State) (a v : Word) : (s.stored a v).device = s.device := by rw [stored_frame]

/-- A word write at or above 0x0800 through `r`, its limit check made. -/
theorem writeWord_checked {u : State} {r : WReg} {ea : Word} (v : Word) {bad : Prop} [Decidable bad] (heven : ea.getLsbD 0 = false)
    (hlo : 0x0800 ≤ ea.toNat) (hbad : u.pastLimit r ea ↔ bad) :
    writeWord ea v (decide (r = 15)) (start u) = .ok () (start ((u.stored ea v).stackError bad)) := by
  rw [writeWord_stored heven hlo rfl, stackLimit_start r ea u hbad, ← stored_stackError]
  rfl

/-- Two words of data memory, one above the other (R178): the checks of both addresses are one of the upper address. -/
theorem writeDouble_inside {u : State} {r : WReg} {ea : Word} (lo hi : Word) (heven : ea.getLsbD 0 = false) (hlo : 0x0800 ≤ ea.toNat)
    (hin : ea.toNat + 3 < 0x10000) : writeDouble ea lo hi (decide (r = 15)) (start u) =
      .ok () (start (((u.stored ea lo).stored (ea + 2) hi).stackError (u.pastLimit r (ea + 2)))) := by
  have hup : (ea + 2).toNat = ea.toNat + 2 := toNat_add_two (by omega)
  have hframe := stored_frame u ea lo
  have hpast : (((u.stored ea lo).stackError (u.pastLimit r ea)).stackError (r = 15 ∧ ea = 0xFFFE)).pastLimit r (ea + 2) ↔
      u.pastLimit r (ea + 2) := by rw [hframe]; rfl
  have hchecks : u.pastLimit r ea ∨ (r = 15 ∧ ea = 0xFFFE) ∨ u.pastLimit r (ea + 2) ↔ u.pastLimit r (ea + 2) := by
    refine ⟨?_, fun h => .inr (.inr h)⟩
    rintro (⟨hr, harmed, hlim⟩ | ⟨-, hend⟩ | h)
    · exact ⟨hr, harmed, by omega⟩
    · rw [hend] at hin
      exact absurd hin (by decide)
    · exact h
  rw [writeDouble, writeWord_checked lo heven hlo Iff.rfl, bind_ok, upperAddress_start r heven,
    writeWord_checked hi (even_add_two heven) (by omega) hpast, stored_stackError, stored_stackError, stackError_stackError,
    stackError_stackError, stackError_congr _ hchecks]

/-- At 0xFFFE the upper word goes to 0x0000, where a W register stands (log 38). -/
theorem writeDouble_wrap {u : State} {r n : WReg} (lo hi : Word) (hreg : regAt u.device 0 = some (.w n)) :
    writeDouble 0xFFFE lo hi (decide (r = 15)) (start u) =
      .ok () (start (((u.stored 0xFFFE lo).putW n hi).stackError (r = 15 ∨ (n = 15 ∧ hi.toNat < 0x0800)))) := by
  have hchecks : u.pastLimit r 0xFFFE ∨ (r = 15 ∧ (0xFFFE : Word) = 0xFFFE) ↔ r = 15 := by
    refine ⟨?_, fun h => .inr ⟨h, rfl⟩⟩
    rintro (⟨h, -⟩ | ⟨h, -⟩)
    · exact h
    · exact h
  have hup : (0xFFFE + 2 : Word) = 0 := by decide
  have hdevice := stored_device u 0xFFFE lo
  rw [writeDouble, writeWord_checked lo (by decide) (by decide) Iff.rfl, bind_ok, upperAddress_start r (by decide), stackError_stackError,
    stackError_congr _ hchecks, hup]
  dsimp only
  rw [writeWord_reg (r := .w n) (by decide) (by decide) (by rwa [← hdevice] at hreg) (fun _ _ => Nat.zero_le _) rfl,
    writeReg_w, writeW_stackError, stackError_putW_stackError]

/-- A store elsewhere leaves a word as it is. -/
theorem stored_dataWord_other (s : State) {a : Word} (v : Word) {x : Word} (h : x.toNat + 2 ≤ a.toNat ∨ a.toNat + 2 ≤ x.toNat) :
    (s.stored a v).dataWord x = s.dataWord x := by
  rw [State.dataWord, State.dataWord, stored_dataByte_other v fun _ => by omega, stored_dataByte_other v fun _ => by omega]

/-- MOV.D through a pointer is the store of its two words (R178). -/
theorem exec_movdStore_indirect (s : State) {m : AddrMode} (r : WReg) (k : BitVec 3) (hm : m.isIndirect = true) :
    exec (.movdStore m r k) s = ((writeDouble (pointer m r 4 (start s)).1 (s.getW (k ++ 0#1)) (s.getW (k ++ 1#1)) (decide (r = 15))
      (start (pointer m r 4 (start s)).2.st)).bind fun _ c => .ok () (retire (.movdStore m r k) s (advance 1 c))).outcome := by
  show execMovdStore m r k s = _
  rw [execMovdStore, writePair_indirect hm, ← pointer_start]
  rfl

/-- Where both words are stored, the PC moves past it and its cycles are counted. -/
theorem exec_movdStore_ok {s : State} {m : AddrMode} {r : WReg} {k : BitVec 3} {t : State} (hm : m.isIndirect = true)
    (h : writeDouble (pointer m r 4 (start s)).1 (s.getW (k ++ 0#1)) (s.getW (k ++ 1#1)) (decide (r = 15))
      (start (pointer m r 4 (start s)).2.st) = .ok () (start t)) (hpc : t.pc = s.pc) : ∃ p e, s.pcPast 1 p e ∧
        exec (.movdStore m r k) s = .next (t.finished p e (cycles (.movdStore m r k) s)) := by
  obtain ⟨p, e, hp, hend⟩ := exists_finished (.movdStore m r k) s 1 (c := start t) hpc rfl
  refine ⟨p, e, hp, ?_⟩
  rw [exec_movdStore_indirect s r k hm, h, bind_ok, outcome_ok, hend, start_st]

/-- Settles O47. -/
theorem movdStoresThePair : Obligations.MovdStoresThePair := by
  intro s k lo hi
  refine ⟨fun r => ?_, fun m r hm => ?_⟩
  · obtain ⟨p, e, hp, hend⟩ := exists_finished (.movdStore .direct r k) s 1 (c := start
      (((s.putW (r.extractLsb' 1 3 ++ 0#1) lo).putW (r.extractLsb' 1 3 ++ 1#1) hi).stackError
        (r.extractLsb' 1 3 = 7 ∧ hi.toNat < 0x0800))) rfl rfl
    refine ⟨p, e, hp, ?_⟩
    show Host.Outcome.next (retire _ s (advance 1 (writePairRegs (pairOf r) lo hi (start s)))).st = _
    rw [writePairRegs_start, pairOf, hend]
    rfl
  · intro ea u first second heven hlo
    obtain ⟨w, x, hu⟩ : ∃ w x, u = { s with w := w, intcon1 := x } := pointer_frame m r 4 s
    have hlimit (a : Word) : u.pastLimit r a ↔ s.pastLimit r a := by rw [hu]
    have hdevice : u.device = s.device := by rw [hu]
    have hpc : u.pc = s.pc := by rw [hu]
    have hbyte (a : Nat) : u.dataByte a = s.dataByte a := by rw [hu]; rfl
    have hframe := stored_frame u ea lo
    refine ⟨fun hin => ?_, fun n hend hreg => ?_⟩
    · have hup : (ea + 2).toNat = ea.toNat + 2 := toNat_add_two (by omega)
      have hframe2 := stored_frame (u.stored ea lo) (ea + 2) hi
      have hwrite := writeDouble_inside (u := u) (r := r) lo hi heven hlo hin
      rw [stackError_congr _ (hlimit (ea + 2))] at hwrite
      obtain ⟨p, e, hp, hexec⟩ := exec_movdStore_ok (k := k) hm hwrite (by rw [hframe2, hframe]; exact hpc)
      refine ⟨p, e, _, hp, hexec, ?_, fun h => ?_, fun h => ?_, fun a h1 h2 => ?_⟩
      · rw [hframe2, hframe]
        rfl
      · refine (stored_dataWord_other (u.stored ea lo) hi (.inl hup.ge)).trans (stored_dataWord_same lo ?_)
        rwa [hdevice]
      · refine stored_dataWord_same (s := u.stored ea lo) hi ?_
        rwa [stored_device, hdevice, hup]
      · calc ((u.stored ea lo).stored (ea + 2) hi).dataByte a
            = (u.stored ea lo).dataByte a := stored_dataByte_other hi (by rw [stored_device, hdevice, hup]; exact h2)
          _ = u.dataByte a := stored_dataByte_other lo (by rw [hdevice]; exact h1)
          _ = s.dataByte a := hbyte a
    · rw [← hdevice] at hreg
      have hwrite := writeDouble_wrap (u := u) (r := r) lo hi hreg
      rw [← hend] at hwrite
      obtain ⟨p, e, hp, hexec⟩ := exec_movdStore_ok (k := k) hm hwrite (by rw [hframe]; exact hpc)
      have htop : ea.toNat = 0xFFFE := by rw [hend]; rfl
      refine ⟨p, e, _, hp, hexec, ?_, fun h => ?_, fun a h1 => ?_⟩
      · rw [hframe]
        rfl
      · refine stored_dataWord_same (s := u) lo ?_
        rwa [hdevice]
      · calc (u.stored ea lo).dataByte a
          _ = u.dataByte a := stored_dataByte_other lo fun himp => by
            have := h1 (by rwa [hdevice] at himp)
            omega
          _ = s.dataByte a := hbyte a

end Sys2Proof.Machine
end

section
/-! PROOFS. MOV.D into two registers below 0x0800: two software writes, one after the other. -/

namespace Sys2Proof.Machine

/-! ### A software write inside a step -/

theorem raiseAll_inhibit (ts : List Trap) (c : Cpu) :
    (raiseAll ts c).Sat (fun _ c' => c'.inhibit = c.inhibit) fun _ => True := by
  rcases raiseAll_cases ts c with h | ⟨x, h, -⟩ <;> rw [h]
  · trivial
  · rfl

/-- A software write inhibits no write after it, the request of an address error included (log 37). -/
theorem writeReg_inhibit (r : Reg) (whole : Bool) (mask v : Word) (c : Cpu) :
    (writeReg r whole mask v c).Sat (fun _ c' => c'.inhibit = c.inhibit) fun _ => True := by
  cases r with
  | w i => exact writeW_inhibit _ _ _
  | splim | sr | corcon | intcon2 | ifs k | iec k => exact rfl
  | disicnt | rcon | osccon =>
    simp only [writeReg]
    split
    · exact rfl
    · exact rfl
  | intcon1 =>
    simp only [writeReg, writeIntcon1]
    split
    · exact raiseAll_inhibit _ _
    · exact rfl
  | ipc k =>
    simp only [writeReg]
    split
    · trivial
    · exact rfl

/-- What goes on after a software write: the device's parameters and the step's inhibition are those of before. -/
def WriteKept (c c' : Cpu) : Prop := c'.inhibit = c.inhibit ∧ c'.st.device = c.st.device

theorem writeReg_kept (r : Reg) (whole : Bool) (mask v : Word) (c : Cpu) :
    (writeReg r whole mask v c).Sat (fun _ c' => WriteKept c c') fun _ => True := by
  have hinhibit := writeReg_inhibit r whole mask v c
  have hevolves := writeReg_evolvesFrom r whole mask v c
  cases h : writeReg r whole mask v c with
  | ok x c' =>
    rw [h] at hinhibit hevolves
    exact ⟨hinhibit, hevolves.device⟩
  | reset t => trivial
  | stop why => trivial

/-- Only INTCON1, with a conflict, and the IPC registers, with a hazard, can end a step in a write (R228, R291). -/
theorem writeReg_ok {r : Reg} (hintcon1 : r ≠ .intcon1) (hipc : ∀ n, r ≠ .ipc n) (whole : Bool) (mask v : Word) (c : Cpu) :
    ∃ c', writeReg r whole mask v c = .ok () c' := by
  cases r with
  | w i | splim | sr | corcon | intcon2 | ifs k | iec k => exact ⟨_, rfl⟩
  | disicnt | rcon | osccon =>
    simp only [writeReg]
    split
    · exact ⟨_, rfl⟩
    · exact ⟨_, rfl⟩
  | intcon1 => exact absurd rfl hintcon1
  | ipc k => exact absurd rfl (hipc k)

/-- Two continuations that agree wherever the first part goes on. -/
theorem bind_congr_of_sat {α β : Type} {m : Run α} {f g : α → Cpu → Run β} {P : α → Cpu → Prop} {Q : State → Prop}
    (hm : m.Sat P Q) (h : ∀ x c, P x c → f x c = g x c) : m.bind f = m.bind g := by
  cases m with
  | ok x c => exact h x c hm
  | reset s => rfl
  | stop r => rfl

/-- A word write to a register, its limit check made first. -/
theorem writeWord_reg_limit {ea v : Word} {b : Bool} {c : Cpu} {r : Reg} (heven : ea.getLsbD 0 = false) (hlo : ea.toNat < 0x0800)
    (hreg : regAt c.st.device ea.toNat = some r) (hin : c.inhibit = false) :
    writeWord ea v b c = writeReg r true 0xFFFF v (stackLimit b ea c) := by
  simp only [writeWord, heven, Bool.false_eq_true, if_false, if_pos (lt_0800 hlo), stackLimit_device, stackLimit_inhibit, hin, hreg]

/-- Below 0xFFFE no upper address wraps (R216). -/
theorem upperAddress_inside {b : Bool} {ea : Word} {c : Cpu} (h : ea.toNat + 2 < 0x0800) : upperAddress b ea c = (ea + 2, c) := by
  have hend : ¬ (ea = 0xFFFE ∨ ea = 0xFFFF) := by
    rintro (rfl | rfl)
    · exact absurd h (by decide)
    · exact absurd h (by decide)
  rw [upperAddress, decide_eq_false hend, Bool.and_false, if_neg Bool.false_ne_true]

/-- What the write of the lower word leaves for the upper one. -/
theorem writeLower_kept (u : State) (b : Bool) (ea : Word) (a : Reg) (lo : Word) :
    (writeReg a true 0xFFFF lo (stackLimit b ea (start u))).Sat
      (fun _ c => c.inhibit = false ∧ c.st.device = u.device) fun _ => True := by
  refine sat_mono (writeReg_kept _ _ _ _ _) (fun _ c ⟨hinhibit, hdevice⟩ => ⟨?_, ?_⟩) fun _ => id
  · rw [hinhibit, stackLimit_inhibit]
    rfl
  · rw [hdevice, stackLimit_device]
    rfl

section
variable {u : State} {b : Bool} {ea : Word} {a : Reg} (lo hi : Word) (heven : ea.getLsbD 0 = false) (hlo : ea.toNat + 2 < 0x0800)
  (hreg : regAt u.device ea.toNat = some a)
include heven hlo hreg

/-- Two words into registers: the write of the lower word, and whatever the upper word meets. -/
theorem writeDouble_reg : writeDouble ea lo hi b (start u) =
    (writeReg a true 0xFFFF lo (stackLimit b ea (start u))).bind fun _ c => writeWord (ea + 2) hi b c := by
  rw [writeDouble, writeWord_reg_limit heven (by omega) hreg rfl]
  exact congrArg _ (funext fun _ => funext fun c => by rw [upperAddress_inside hlo])

/-- Both addresses listed: two software writes, each after its limit check. -/
theorem writeDouble_regs {a2 : Reg} (hreg2 : regAt u.device (ea.toNat + 2) = some a2) : writeDouble ea lo hi b (start u) =
    (writeReg a true 0xFFFF lo (stackLimit b ea (start u))).bind fun _ c =>
      writeReg a2 true 0xFFFF hi (stackLimit b (ea + 2) c) := by
  have hup : (ea + 2).toNat = ea.toNat + 2 := toNat_add_two (by omega)
  rw [writeDouble_reg lo hi heven hlo hreg]
  refine bind_congr_of_sat (writeLower_kept u b ea a lo) fun _ c ⟨hinhibit, hdevice⟩ => ?_
  exact writeWord_reg_limit (even_add_two heven) (by omega) (by rwa [hdevice, hup]) hinhibit

/-- The upper one not listed: refused, once the lower one is written (log 21). -/
theorem writeDouble_unlisted (hintcon1 : a ≠ .intcon1) (hipc : ∀ n, a ≠ .ipc n) (hreg2 : regAt u.device (ea.toNat + 2) = none) :
    writeDouble ea lo hi b (start u) = .stop .unlistedRegister := by
  have hup : (ea + 2).toNat = ea.toNat + 2 := toNat_add_two (by omega)
  obtain ⟨c, hc⟩ := writeReg_ok hintcon1 hipc true 0xFFFF lo (stackLimit b ea (start u))
  have hkept := writeLower_kept u b ea a lo
  rw [hc] at hkept
  obtain ⟨hinhibit, hdevice⟩ := hkept
  rw [writeDouble_reg lo hi heven hlo hreg, hc, bind_ok]
  exact writeWord_unlisted (even_add_two heven) (by omega) (by rwa [hdevice, hup]) hinhibit

end

/-- A priority changed on the fly is refused, in an IPC register as POP writes it (R291, D13). -/
theorem writeReg_ipc_refused {n : Fin 12} {lo : Word} {c : Cpu} (h : c.st.priorityHazard n 0xFFFF lo = true) :
    writeReg (.ipc n) true 0xFFFF lo c = .stop .priorityChangeWhileEnabled := by
  rw [writeReg, if_pos h]

/-- A word written to IPCk changes a priority on the fly where one of its fields is an enabled source's (log 20). -/
theorem priorityHazard_word {s : State} {n : Fin 12} {v : Word} (hcpu : s.cpuIpl < 7) (h : ∃ j : Nat, j < 4 ∧
    s.irqPresent (4 * n + j) = true ∧ s.irqEnable (4 * n + j) = true ∧
      (s.disicnt = 0 ∨ s.irqLevel (4 * n + j) = 7 ∨ (v.extractLsb' (4 * j) 3).toNat = 7)) : s.priorityHazard n 0xFFFF v = true := by
  obtain ⟨j, hj, hpresent, henable, hcover⟩ := h
  have hmask : (0xFFFF : Word).getLsbD (4 * j) = true := by rw [getLsbD_FFFF, decide_eq_true (by omega)]
  have hopen : (!(decide (s.disicnt ≠ 0) && decide (s.irqLevel (4 * n + j) ≠ 7) && decide ((v.extractLsb' (4 * j) 3).toNat ≠ 7))) =
      true := by
    simp only [Bool.not_eq_true', Bool.and_eq_false_iff, decide_eq_false_iff_not, ne_eq, not_not, or_assoc]
    exact hcover
  have hmem : j ∈ [0, 1, 2, 3] := List.mem_range.2 hj
  rw [State.priorityHazard, decide_eq_true hcpu, Bool.true_and, List.any_eq_true]
  exact ⟨j, hmem, by rw [hmask, hpresent, henable, hopen]; rfl⟩

/-- IFS0 and IFS1 by one MOV.D (R35, D12). -/
theorem writeDouble_ifs {u : State} {r : WReg} (lo hi : Word) : writeDouble 0x0084 lo hi (decide (r = 15)) (start u) =
    .ok () (start { u.stackError (u.pastLimit r 0x0086) with
      ifs := (u.ifs.set 0 (accessWrite (irqMask u.device 0) 0 0xFFFF (u.ifs.get 0) lo)).set 1
        (accessWrite (irqMask u.device 1) 0 0xFFFF (u.ifs.get 1) hi) }) := by
  have hchecks : u.pastLimit r 0x0084 ∨ u.pastLimit r 0x0086 ↔ u.pastLimit r 0x0086 :=
    or_iff_right_of_imp fun ⟨hr, harmed, hlim⟩ => ⟨hr, harmed, Nat.lt_trans hlim (by decide)⟩
  have hother (x : Word) : (u.ifs.set 0 x).get 1 = u.ifs.get 1 := Vector.getElem_set_ne (by decide) (by decide) (by decide)
  have hlower : writeReg (.ifs 0) true 0xFFFF lo (start (u.stackError (u.pastLimit r 0x0084))) = .ok () (start
      (({ u with ifs := u.ifs.set 0 (accessWrite (irqMask u.device 0) 0 0xFFFF (u.ifs.get 0) lo) } : State).stackError
        (u.pastLimit r 0x0084))) := rfl
  have hlimit (v : State) (h : v.pastLimit r 0x0086 ↔ u.pastLimit r 0x0086) :
      stackLimit (decide (r = 15)) (0x0084 + 2) (start v) = start (v.stackError (u.pastLimit r 0x0086)) := stackLimit_start r 0x0086 v h
  have hupper (v : State) : writeReg (.ifs 1) true 0xFFFF hi (start v) =
      .ok () (start { v with ifs := v.ifs.set 1 (accessWrite (irqMask v.device 1) 0 0xFFFF (v.ifs.get 1) hi) }) := rfl
  rw [writeDouble_regs (a := .ifs 0) (a2 := .ifs 1) lo hi (by decide) (by decide) (regAt_of_tableReg _ (by decide))
    (regAt_of_tableReg _ (by decide)), stackLimit_start r 0x0084 u Iff.rfl, hlower, bind_ok,
    hlimit, stackError_stackError, stackError_congr _ hchecks, hupper, stackError_ifs, hother]
  · rfl
  · exact Iff.rfl

/-- One part after another, in either grouping. -/
theorem run_bind_assoc {α β γ : Type} (m : Run α) (f : α → Cpu → Run β) (g : β → Cpu → Run γ) :
    (m.bind f).bind g = m.bind fun x c => (f x c).bind g := by
  cases m <;> rfl

/-- Settles O48. -/
theorem movdStoresIntoRegisters : Obligations.MovdStoresIntoRegisters := by
  intro s m r k a hm i lo hi ea u checked heven hlo hreg
  obtain ⟨w, x, hu⟩ : ∃ w x, u = { s with w := w, intcon1 := x } := pointer_frame m r 4 s
  have hdevice : u.device = s.device := by rw [hu]
  have hexec := exec_movdStore_indirect s r k hm
  rw [← hdevice] at hreg ⊢
  refine ⟨fun b hregb => ?_, fun hregb hintcon1 hipc => ?_, fun n ha hcpu hfields => ?_, fun hea => ?_⟩
  · refine hexec.trans ?_
    rw [writeDouble_regs lo hi heven hlo hreg hregb, run_bind_assoc]
  · refine hexec.trans ?_
    rw [writeDouble_unlisted lo hi heven hlo hreg hintcon1 hipc hregb]
    rfl
  · subst ha
    have hazard : (start (u.stackError (u.pastLimit r ea))).st.priorityHazard n 0xFFFF lo = true := by
      rw [hu]
      exact priorityHazard_word (s := State.stackError { s with w := w, intcon1 := x } _) hcpu hfields
    refine hexec.trans ?_
    rw [writeDouble_reg lo hi heven hlo hreg, stackLimit_start r _ u Iff.rfl, writeReg_ipc_refused hazard]
    rfl
  · have hwrite := writeDouble_ifs (u := u) (r := r) lo hi
    have hifs : u.ifs = s.ifs := by rw [hu]
    have hlimit : u.pastLimit r 0x0086 ↔ s.pastLimit r 0x0086 := by rw [hu]
    rw [← hea, hdevice, hifs, stackError_congr u hlimit] at hwrite
    obtain ⟨p, d, hp, hfinish⟩ := exec_movdStore_ok (k := k) hm hwrite (by rw [hu]; rfl)
    refine ⟨p, d, _, _, hp, hfinish, fun b hb => ⟨?_, getLsbD_irqWrite s 1 (s.ifs.get 1) hi hb⟩⟩
    have hbit := getLsbD_irqWrite s 0 (s.ifs.get 0) lo hb
    rwa [Nat.mul_zero, Nat.zero_add] at hbit

end Sys2Proof.Machine
end

section
/-! PROOFS. The bit tests: what a skip passes over, and what the two forms read. -/

namespace Sys2Proof.Machine

/-! ### The end of a bit test -/

/-- How many words a bit test moves on by (R179, R180). -/
def State.testWords (s : State) (v : Word) (bit : BitVec 4) (skipOn : Bool) : Nat :=
  if v.getLsbD bit.toNat = skipOn then if isTwoWord (s.progRead (s.pc.toNat + 2)) then 3 else 2 else 1

theorem skipIf_eq (skip : Bool) (c : Cpu) : skipIf skip c = advance (if skip then c.st.skipWords else 1) c :=
  (apply_ite (advance · c) (skip = true) _ _).symm

/-- A bit test ends with the PC past what it skips; the parts before it have kept the PC and program memory. -/
theorem exists_tested (i : Instr) {s u : State} (v : Word) (bit : BitVec 4) (skipOn : Bool) (hpc : u.pc = s.pc)
    (hprog : u.prog = s.prog) : ∃ p d,
      (retire i s (skipIf (v.getLsbD bit.toNat == skipOn) (start u))).st = u.finished p d (cycles i s) ∧ s.pcPast (s.testWords v bit skipOn) p d := by
  have hread : u.progRead (u.pc.toNat + 2) = s.progRead (s.pc.toNat + 2) := by simp only [State.progRead, State.progByte, hprog, hpc]
  have hwords : (if (v.getLsbD bit.toNat == skipOn) = true then u.skipWords else 1) = s.testWords v bit skipOn := by
    simp only [State.skipWords, State.testWords, hread, beq_iff_eq]
  obtain ⟨p, d, hp, hend⟩ := exists_finished i s (s.testWords v bit skipOn) (c := start u) hpc rfl
  refine ⟨p, d, ?_, hp⟩
  rw [skipIf_eq, start_st, hwords, hend, start_st]

/-! ### The length of an instruction -/

theorem isTwoWord_iff (w : ProgWord) : isTwoWord w = true ↔
    (w.extractLsb' 16 8 = 0x04 ∧ w.getLsbD 0 = false) ∨ (w.extractLsb' 16 8 = 0x02 ∧ w.getLsbD 0 = false) ∨
      (w.extractLsb' 16 8 = 0x08 ∧ (w.extractLsb' 14 2 = 0 ∨ w.extractLsb' 4 12 = 0x800)) := by
  simp only [isTwoWord, Bool.or_eq_true, Bool.and_eq_true, Bool.not_eq_true', decide_eq_true_eq, or_assoc]

theorem opcodeRow_mask_opcode (i : Instr) : (opcodeRow i).1.extractLsb' 16 8 = BitVec.allOnes 8 := by cases i <;> simp [opcodeRow]

/-- Every row fixes the opcode, bits 23 to 16 (R133). -/
theorem opcode_of_row {w : ProgWord} {i : Instr} (h : w &&& (opcodeRow i).1 = (opcodeRow i).2) :
    w.extractLsb' 16 8 = (opcodeRow i).2.extractLsb' 16 8 := by
  rw [← h, BitVec.extractLsb'_and, opcodeRow_mask_opcode, BitVec.and_allOnes]

/-- No other row has the opcode of GOTO, or one of CALL's and DO's (log 16). -/
theorem opcode_ne {i : Instr} (h : ∀ t, i ≠ .goto t) : (opcodeRow i).2.extractLsb' 16 8 ≠ 0x04 ∧
    (opcodeRow i).2.extractLsb' 16 8 ≠ 0x02 ∧ (opcodeRow i).2.extractLsb' 16 8 ≠ 0x08 := by
  cases i with
  | goto t => exact absurd rfl (h t)
  | _ => simp [opcodeRow]

theorem isTwoWord_goto (t : BitVec 22) : isTwoWord (encodeWord1 (.goto t)) = true :=
  (isTwoWord_iff _).2 (.inl ⟨(opcode_of_row (encodeWord1_and_mask (.goto t))).trans (by simp [opcodeRow]), getLsbD_append_zero _⟩)

/-- The words with GOTO's opcode and bit 0 clear are the first words of GOTO (R133). -/
theorem eq_encodeWord1_goto {w : ProgWord} (hop : w.extractLsb' 16 8 = 0x04) (h0 : w.getLsbD 0 = false) :
    w = encodeWord1 (.goto (0#7 ++ w.extractLsb' 1 15)) := by
  have hlow : w.extractLsb' 0 1 = 0#1 := by rw [← ofBool_getLsbD, h0]; rfl
  have hupper : 0x04#8 ++ (0#7 ++ w.extractLsb' 1 15).extractLsb' 0 15 = w.extractLsb' 1 23 :=
    append_eq_field hop.symm BitVec.extractLsb'_append_eq_right.symm
  exact (append_eq_word hupper hlow).symm

/-- Of the rows of the opcode table GOTO alone has two words (R133). -/
theorem isTwoWord_of_decode {w w2 : ProgWord} {i : Instr} (h : decode w w2 = .ok i) :
    isTwoWord w = true ↔ ∃ t, i = .goto t := by
  have hread := readFrom_of_decode h
  constructor
  · intro htwo
    by_contra hgoto
    obtain ⟨h4, h2, h8⟩ := opcode_ne (not_exists.1 hgoto)
    rw [← opcode_of_row hread.row] at h4 h2 h8
    rcases (isTwoWord_iff w).1 htwo with ⟨hop, -⟩ | ⟨hop, -⟩ | ⟨hop, -⟩
    · exact h4 hop
    · exact h2 hop
    · exact h8 hop
  · rintro ⟨t, rfl⟩
    rw [hread.word1 nofun]
    exact isTwoWord_goto t

/-! ### The file forms -/

theorem exec_testFile {s : State} {i : Instr} {bit : BitVec 4} {f : BitVec 12} {skipOn : Bool}
    (hi : (i = .btscF bit f ∧ skipOn = false) ∨ (i = .btssF bit f ∧ skipOn = true)) : exec i s = testFile i skipOn bit f s := by
  rcases hi with ⟨rfl, rfl⟩ | ⟨rfl, rfl⟩
  · rfl
  · rfl

/-- Settles O50. -/
theorem bitTestOfFileSkips : Obligations.BitTestOfFileSkips := by
  refine ⟨fun s i bit f skipOn v e hi hread => ?_, fun w w2 i h => isTwoWord_of_decode h, isTwoWord_goto, fun w hw => ?_⟩
  · obtain ⟨p, d, hend, hp⟩ := exists_tested i (s := s) (u := { s with draws := s.draws + e }) v bit skipOn rfl rfl
    refine ⟨p, d, ?_, hp⟩
    rw [exec_testFile hi, testFile, bitFileAddress, readWord_readable hread, bind_ok, outcome_ok, hend, State.finished, State.finished,
      ← Nat.add_assoc]
  · rw [isTwoWord_iff]
    exact or_iff_right fun ⟨hop, h0⟩ => hw _ (eq_encodeWord1_goto hop h0)

/-! ### The operand forms -/

theorem exec_testOperand {s : State} {i : Instr} {bit : BitVec 4} {m : AddrMode} {r : WReg} {skipOn : Bool}
    (hi : (i = .btscW bit m r ∧ skipOn = false) ∨ (i = .btssW bit m r ∧ skipOn = true)) :
    exec i s = testOperand i skipOn bit m r s := by
  rcases hi with ⟨rfl, rfl⟩ | ⟨rfl, rfl⟩
  · rfl
  · rfl

/-- Settles O51. -/
theorem bitTestOfOperandSkips : Obligations.BitTestOfOperandSkips := by
  intro s i bit m r skipOn hi
  refine ⟨fun hm => ?_, fun v e hm => ?_⟩
  · subst hm
    obtain ⟨p, d, hend, hp⟩ := exists_tested i (s := s) (u := s) (s.getW r) bit skipOn rfl rfl
    exact ⟨p, d, (exec_testOperand hi).trans (congrArg Host.Outcome.next hend), hp⟩
  · intro ea u hread
    obtain ⟨w, x, hpointed⟩ := pointer_frame m r 2 s
    have hlimit : (pointer m r 2 (start s)).2.st.pastLimit r ea ↔ s.pastLimit r ea := by rw [hpointed]
    have hoperand : readOperand m r (start s) = .ok v (start { u with draws := u.draws + e }) := by
      rw [readOperand_indirect hm, pointer_start]
      exact readWord_checked hlimit hread
    have hpc : u.pc = s.pc := (stackError_pc _ _).trans (by rw [hpointed])
    have hprog : u.prog = s.prog := (stackError_prog _ _).trans (by rw [hpointed])
    obtain ⟨p, d, hend, hp⟩ := exists_tested i (s := s) (u := { u with draws := u.draws + e }) v bit skipOn hpc hprog
    refine ⟨p, d, ?_, hp⟩
    rw [exec_testOperand hi, testOperand, hoperand, bind_ok, outcome_ok, hend, State.finished, State.finished, ← Nat.add_assoc]

end Sys2Proof.Machine
end

section
/-! PROOFS. The operations that no row of the opcode table uses: the OR into SRL and the fetches of the MAC class. -/

namespace Sys2Proof.Machine

/-! ### The OR into SRL -/

/-- An even address is that of its register. -/
theorem regBase_even {ea : Word} (h : ea.getLsbD 0 = false) : regBase ea = ea.toNat := by
  have hbit : ea.toNat.testBit 0 = false := h
  simp at hbit
  rw [regBase]
  omega

/-- SR after 0xE0 is ORed into its lower byte: IPL<2:0> become 7 unless NSTDIS is 1 (R27, R185). -/
def srMasked (s : State) : Word :=
  accessWrite (if s.nstdis then 0x000F else 0x00EF) 0x3400 0x00FF s.sr
    ((s.sr.extractLsb' 0 8 ||| 0xE0#8) ++ (s.sr.extractLsb' 0 8 ||| 0xE0#8))

theorem orByte_sr {s : State} {ea : Word} (heven : ea.getLsbD 0 = false) (hlo : ea.toNat < 0x0800)
    (hreg : regAt s.device ea.toNat = some .sr) : orByte ea 0xE0 (start s) = .ok () (start { s with sr := srMasked s }) := by
  rw [← regBase_even heven] at hreg
  have hread : readByte ea false (start s) = .ok (s.sr.extractLsb' 0 8) (start s) := by
    simp only [readByte, stackLimit_inside (b := false) nofun, if_pos (lt_0800 hlo), start_st, hreg, heven]
    rfl
  have hwrite (v : Byte) : writeByte ea v false (start s) = writeReg .sr false 0x00FF (v ++ v) (start s) := by
    simp only [writeByte, stackLimit_inside (b := false) nofun, if_pos (lt_0800 hlo), start_st, start_inhibit, hreg, heven,
      Bool.false_eq_true, if_false]
  rw [orByte, hread, bind_ok, hwrite]
  rfl

theorem getLsbD_srMasked (s : State) (b : Nat) : (srMasked s).getLsbD b =
    if 5 ≤ b ∧ b ≤ 7 ∧ s.nstdis = false then true else s.sr.getLsbD b := by
  have hmask : (0x00FF : Word).getLsbD b = decide (b < 8) := Nat.testBit_two_pow_sub_one 8 b
  rw [srMasked, getLsbD_accessWrite, hmask]
  by_cases hb : b < 8
  · have hset : ∀ b < 8, (0xE0#8).getLsbD b = decide (5 ≤ b) := by decide
    rw [BitVec.getLsbD_append, if_pos hb, BitVec.getLsbD_or, hset b hb, BitVec.getLsbD_extractLsb', Nat.zero_add]
    cases s.nstdis <;> interval_cases b <;> simp
  · rw [decide_eq_false hb, if_neg Bool.false_ne_true, if_neg (by omega)]

/-- With IPL<2:0> at 7 no source has a level above the CPU's (R234). -/
theorem winner_eq_none_of_ipl {s : State} (h : ∀ b, 5 ≤ b → b ≤ 7 → s.sr.getLsbD b = true) : s.winner = none := by
  have hipl : s.ipl = BitVec.allOnes 3 := by
    apply BitVec.eq_of_getLsbD_eq
    intro b hb
    simp only [State.ipl, BitVec.getLsbD_extractLsb', hb, decide_true, Bool.true_and, BitVec.getLsbD_allOnes]
    exact h (5 + b) (by omega) (by omega)
  have hcpu : 7 ≤ s.cpuIpl := by
    rw [cpuIpl_eq, hipl]
    exact Nat.le_add_left 7 _
  refine winner_eq_none fun i => ?_
  have hlevel := irqLevel_lt s i
  simp [State.eligible, show ¬ s.cpuIpl < s.irqLevel i by omega]

/-! ### Fetches of the MAC class -/

/-- Where an implemented address belongs: to Y space, or else to X space (R224). -/
theorem implemented_in_space {d : Device} {a : Nat} (y : Bool) (h : Device.dataImplemented d a = true) :
    (if y then Device.yImplemented d a else Device.xImplemented d a) = (inRanges d.ySpace a == y) := by
  cases y <;> simp [Device.yImplemented, Device.xImplemented, h]

/-- A failed read that does not conflict: a free value, and the step's writes inhibited (R221, R223). -/
theorem failedRead_of_not_conflicts {s : State} (h : s.conflicts .addrErr = false) : failedRead (start s) =
    .ok (Config.freeWord s.draws)
      { st := { s with intcon1 := s.intcon1 ||| 0x0008, draws := s.draws + 1 }, inhibit := true } := by
  rw [failedRead, addressError, raise_of_not_conflicts (c := { start s with inhibit := true }) h, bind_ok]
  rfl

/-- Settles O60: the dummy operation is an accumulator operation without carries, the OR a software write of SR, and a fetch from the other
space a failed read. -/
theorem operationsWithoutARow : Obligations.OperationsWithoutARow := by
  refine ⟨fun x s => ?_, fun s ea heven hlo hreg => ?_, fun y ea s heven hlo himp => ⟨fun hspace => ?_, fun hspace hconflict => ?_⟩⟩
  · exact ⟨_, dummyAccumulatorOperation_eq x s, getLsbD_accSr_ovf s.sr x false s.draws,
      fun b hovf hsat h11 h10 => getLsbD_accSr_other s.sr x false s.draws hovf hsat h11 h10⟩
  · refine ⟨srMasked s, orByte_sr heven hlo hreg, getLsbD_srMasked s, fun hnstdis => winner_eq_none_of_ipl fun b h5 h7 => ?_⟩
    rw [getLsbD_srMasked, if_pos ⟨h5, h7, hnstdis⟩]
  · rw [macFetch, start_st, implemented_in_space y himp, hspace, beq_self_eq_true, if_pos rfl]
    exact readWord_ram heven hlo himp nofun
  · have hfetch : macFetch y ea false (start s) = failedRead (start s) := by
      rw [macFetch, start_st, implemented_in_space y himp, beq_eq_false_iff_ne.2 hspace, if_neg Bool.false_ne_true,
        stackLimit_inside (b := false) nofun]
    exact ⟨_, _, hfetch.trans (failedRead_of_not_conflicts hconflict), rfl, rfl⟩

end Sys2Proof.Machine
end

section
/-! PROOFS. Between instructions: eligibility and arbitration, the pending trap, the acceptance decision, and what a step does with it. -/

namespace Sys2Proof.Machine

/-! ### Eligibility and arbitration -/

theorem eligible_iff (s : State) (i : Nat) : s.eligible i = true ↔ s.irqPresent i = true ∧ s.irqFlag i = true ∧
    s.irqEnable i = true ∧ s.cpuIpl < s.irqLevel i ∧ ¬ (s.disicnt ≠ 0 ∧ s.irqLevel i ≤ 6) := by
  have hdisi : (!s.disiBlocks i) = true ↔ ¬ (s.disicnt ≠ 0 ∧ s.irqLevel i ≤ 6) := by
    rw [Bool.not_eq_true', ← Bool.not_eq_true, State.disiBlocks, Bool.and_eq_true, decide_eq_true_eq, decide_eq_true_eq]
  simp only [State.eligible, Bool.and_eq_true, decide_eq_true_eq, hdisi, and_assoc]

/-- Source `i` comes before `j`: it has the greater level, or at one level the lower number (R234). -/
def State.outranks (s : State) (i j : Nat) : Prop := s.irqLevel j < s.irqLevel i ∨ (s.irqLevel j = s.irqLevel i ∧ i ≤ j)

theorem outranks_refl (s : State) (i : Nat) : s.outranks i i := .inr ⟨rfl, le_rfl⟩

theorem outranks_trans {s : State} {i j k : Nat} (hij : s.outranks i j) (hjk : s.outranks j k) : s.outranks i k := by
  unfold State.outranks at *
  omega

theorem outranks_antisymm {s : State} {i j : Nat} (hij : s.outranks i j) (hji : s.outranks j i) : i = j := by
  unfold State.outranks at *
  omega

/-- Of sources in the order of their numbers the fold keeps the one that comes before all others. -/
theorem foldl_better (s : State) (l : List Nat) (b : Nat) (hsorted : (b :: l).Pairwise (· < ·)) :
    ∃ i ∈ b :: l, l.foldl s.better (some b) = some i ∧ ∀ j ∈ b :: l, s.outranks i j := by
  induction l generalizing b with
  | nil => exact ⟨b, List.mem_cons_self .., rfl, fun j hj => List.mem_singleton.1 hj ▸ outranks_refl s b⟩
  | cons x l ih =>
    obtain ⟨hb, hxl⟩ := List.pairwise_cons.1 hsorted
    obtain ⟨-, hl⟩ := List.pairwise_cons.1 hxl
    have hbx : b < x := hb x (List.mem_cons_self ..)
    rw [List.foldl_cons, State.better]
    split
    next hlevel =>
      obtain ⟨i, hi, hfold, hfirst⟩ := ih x hxl
      refine ⟨i, List.mem_cons_of_mem _ hi, hfold, List.forall_mem_cons.2 ⟨?_, hfirst⟩⟩
      exact outranks_trans (hfirst x (List.mem_cons_self ..)) (.inl hlevel)
    next hlevel =>
      obtain ⟨i, hi, hfold, hfirst⟩ := ih b (List.pairwise_cons.2 ⟨fun j hj => hb j (List.mem_cons_of_mem _ hj), hl⟩)
      obtain ⟨hfirstb, hfirstl⟩ := List.forall_mem_cons.1 hfirst
      refine ⟨i, ?_, hfold, List.forall_mem_cons.2 ⟨hfirstb, List.forall_mem_cons.2 ⟨?_, hfirstl⟩⟩⟩
      · exact (List.mem_cons.1 hi).elim (fun h => h ▸ List.mem_cons_self ..)
          fun h => List.mem_cons_of_mem _ (List.mem_cons_of_mem _ h)
      · exact outranks_trans hfirstb ((Nat.lt_or_ge _ _).imp_right fun h => ⟨by omega, hbx.le⟩)

theorem mem_eligible_sources (s : State) (i : Nat) : i ∈ (List.range 45).filter s.eligible ↔ s.eligible i = true := by
  rw [List.mem_filter, List.mem_range, and_iff_right_of_imp]
  intro h
  obtain ⟨hpresent, -⟩ := (eligible_iff s i).1 h
  exact lt_of_irqPresent hpresent

/-- Arbitration: no source is eligible, or one that comes before all the eligible ones wins (R234). -/
theorem winner_cases (s : State) : (s.winner = none ∧ ∀ i, s.eligible i = false) ∨
    ∃ i, s.winner = some i ∧ s.eligible i = true ∧ ∀ j, s.eligible j = true → s.outranks i j := by
  have hsorted : ((List.range 45).filter s.eligible).Pairwise (· < ·) := List.pairwise_lt_range.filter _
  have hmem := mem_eligible_sources s
  unfold State.winner
  cases h : (List.range 45).filter s.eligible with
  | nil => exact .inl ⟨rfl, fun i => Bool.eq_false_of_not_eq_true fun hi => by simpa [h] using (hmem i).2 hi⟩
  | cons b l =>
    rw [h] at hsorted hmem
    obtain ⟨i, hi, hfold, hfirst⟩ := foldl_better s l b hsorted
    exact .inr ⟨i, hfold, (hmem i).1 hi, fun j hj => hfirst j ((hmem j).2 hj)⟩

theorem winner_eq_some_iff (s : State) (i : Nat) :
    s.winner = some i ↔ s.eligible i = true ∧ ∀ j, s.eligible j = true → s.outranks i j := by
  rcases winner_cases s with ⟨hnone, hall⟩ | ⟨k, hk, helig, hfirst⟩
  · simp [hnone, hall]
  · rw [hk, Option.some.injEq]
    constructor
    · rintro rfl
      exact ⟨helig, hfirst⟩
    · exact fun ⟨hi, hi'⟩ => outranks_antisymm (hfirst i hi) (hi' k helig)

theorem winner_eq_none_iff (s : State) : s.winner = none ↔ ∀ i, s.eligible i = false := by
  refine ⟨fun h => ?_, winner_eq_none⟩
  rcases winner_cases s with ⟨-, hall⟩ | ⟨k, hk, -⟩
  · exact hall
  · exact nomatch hk.symm.trans h

/-- What a winner is at least: an eligible source. -/
theorem eligible_of_winner {s : State} {i : Nat} (h : s.winner = some i) : s.eligible i = true := ((winner_eq_some_iff s i).1 h).1

/-- Settles O14. -/
theorem arbitrationPicksGreatestLevelThenLowestNumber : Obligations.ArbitrationPicksGreatestLevelThenLowestNumber :=
  fun s => ⟨eligible_iff s, winner_eq_some_iff s, winner_eq_none_iff s⟩

/-- Settles O15: of the terms of eligibility DISICNT touches only its own. -/
theorem disiBlocksLevelsOneToSix : Obligations.DisiBlocksLevelsOneToSix := by
  refine fun s n hn => ⟨fun i hwin => ?_, fun i helig hlevel => ?_, rfl⟩
  · obtain ⟨-, -, -, -, hblock⟩ := (eligible_iff _ i).1 (eligible_of_winner hwin)
    have hlt := irqLevel_lt s i
    have habove : ¬ s.irqLevel i ≤ 6 := fun h6 => hblock ⟨hn, h6⟩
    omega
  · obtain ⟨hpresent, hflag, henable, habove, -⟩ := (eligible_iff s i).1 helig
    exact (eligible_iff _ i).2 ⟨hpresent, hflag, henable, habove, fun ⟨_, h6⟩ => absurd (hlevel.symm.trans_le h6) (by decide)⟩

/-! ### The pending trap -/

/-- Of elements in falling order the first that qualifies is the greatest that does. -/
theorem find?_eq_some_iff_of_falling {α : Type} {f : α → Nat} {p : α → Bool} {l : List α}
    (hfalling : l.Pairwise fun a b => f b < f a) {a : α} :
    l.find? p = some a ↔ a ∈ l ∧ p a = true ∧ ∀ b ∈ l, p b = true → f b ≤ f a := by
  induction l with
  | nil => simp
  | cons x l ih =>
    obtain ⟨hx, hl⟩ := List.pairwise_cons.1 hfalling
    cases hp : p x with
    | true =>
      rw [List.find?_cons_of_pos hp, Option.some.injEq]
      constructor
      · rintro rfl
        exact ⟨List.mem_cons_self .., hp, List.forall_mem_cons.2 ⟨fun _ => le_rfl, fun b hb _ => (hx b hb).le⟩⟩
      · rintro ⟨ha, -, hgreatest⟩
        refine ((List.mem_cons.1 ha).resolve_right fun hal => ?_).symm
        exact absurd (hx a hal) (hgreatest x (List.mem_cons_self ..) hp).not_gt
    | false =>
      have hne : ∀ b, p b = true → b ≠ x := fun b hb h => by simp [h, hp] at hb
      rw [List.find?_cons_of_neg (by simp [hp]), ih hl]
      constructor
      · exact fun ⟨ha, hpa, hgreatest⟩ => ⟨List.mem_cons_of_mem _ ha, hpa,
          List.forall_mem_cons.2 ⟨fun hpx => absurd rfl (hne x hpx), hgreatest⟩⟩
      · exact fun ⟨ha, hpa, hgreatest⟩ => ⟨(List.mem_cons.1 ha).resolve_left (hne a hpa), hpa,
          (List.forall_mem_cons.1 hgreatest).2⟩

theorem trapPending_iff (s : State) (τ : Trap) : s.trapPending τ = true ↔ s.trapFlag τ = true ∧ s.cpuIpl < τ.level := by
  rw [State.trapPending, Bool.and_eq_true, decide_eq_true_eq]

theorem mem_traps (τ : Trap) : τ ∈ [Trap.oscFail, .addrErr, .stkErr, .mathErr] := by cases τ <;> decide

/-- The pending trap is the greatest of those flagged and above the CPU priority (R211, R213). -/
theorem pendingTrap_eq_some_iff (s : State) (τ : Trap) : s.pendingTrap = some τ ↔ s.trapFlag τ = true ∧ s.cpuIpl < τ.level ∧
    ∀ τ', s.trapFlag τ' = true → s.cpuIpl < τ'.level → τ'.level ≤ τ.level := by
  rw [State.pendingTrap, find?_eq_some_iff_of_falling (f := Trap.level) (by decide)]
  simp only [mem_traps, true_and, forall_const, trapPending_iff, and_imp, and_assoc]

theorem pendingTrap_eq_none_iff (s : State) : s.pendingTrap = none ↔ ∀ τ, s.trapPending τ = false := by
  simp only [State.pendingTrap, List.find?_eq_none, mem_traps, forall_const, Bool.not_eq_true]

theorem candidate_of_pendingTrap {s : State} {τ : Trap} (h : s.pendingTrap = some τ) : s.candidate = some (.trap τ) := by
  rw [State.candidate, h]

theorem candidate_of_no_trap {s : State} (h : s.pendingTrap = none) : s.candidate = s.winner.map .irq := by
  rw [State.candidate, h]

/-- Settles O16. -/
theorem pendingTrapOfGreatestLevelComesFirst : Obligations.PendingTrapOfGreatestLevelComesFirst :=
  fun s => ⟨pendingTrap_eq_some_iff s, fun _ => candidate_of_pendingTrap, candidate_of_no_trap⟩

/-- At CPU priority 7 or above no source has a level above the CPU's (R205). -/
theorem winner_eq_none_of_cpuIpl {s : State} (h : 7 ≤ s.cpuIpl) : s.winner = none := by
  refine winner_eq_none fun i => Bool.eq_false_of_not_eq_true fun helig => ?_
  obtain ⟨-, -, -, habove, -⟩ := (eligible_iff s i).1 helig
  have hlt := irqLevel_lt s i
  omega

/-- Settles O17: without IPL3 the CPU priority is below every trap's level. -/
theorem highPriorityBlocksInterruptsOnly : Obligations.HighPriorityBlocksInterruptsOnly := by
  refine fun s => ⟨winner_eq_none_of_cpuIpl, fun hipl3 τ hflag hnone => ?_⟩
  have hcpu : s.cpuIpl = 0 + s.ipl.toNat := by rw [cpuIpl_eq, hipl3]; rfl
  have hlt := s.ipl.isLt
  have hlevel : 11 ≤ τ.level := by cases τ <;> decide
  have hpending : s.trapPending τ = true := (trapPending_iff s τ).2 ⟨hflag, by omega⟩
  exact Bool.false_ne_true (((pendingTrap_eq_none_iff s).1 hnone τ).symm.trans hpending)

/-! ### The decision and the step -/

theorem decision_of_no_candidate {s : State} (hrunning : s.runState = .running) (h : s.candidate = none) :
    s.decision = .run { s with acceptAge := 0 } := by
  simp only [State.decision, hrunning, h]

theorem decision_of_candidate {s : State} {cand : Candidate} (hrunning : s.runState = .running) (h : s.candidate = some cand) :
    s.decision = if s.acceptAge < Device.skidMax s.device cand then
      if Config.skid s.draws then .run { s with acceptAge := s.acceptAge + 1, draws := s.draws + 1 }
      else .enter cand { s with draws := s.draws + 1 } else .enter cand s := by
  simp only [State.decision, hrunning, h]

/-- The bound of each kind of candidate (R209, R210, R236). -/
theorem skidMax_eq (d : Device) (cand : Candidate) : Device.skidMax d cand = match cand with
    | .irq _ => d.intSkidMax
    | .trap τ => if 13 ≤ τ.level then 0 else d.softTrapSkidMax := by
  cases cand with
  | irq i => rfl
  | trap τ => simp only [Device.skidMax, Trap.hard, decide_eq_true_eq]

theorem skidMax_hard (d : Device) {τ : Trap} (h : τ = .oscFail ∨ τ = .addrErr) : Device.skidMax d (.trap τ) = 0 := by
  rcases h with rfl | rfl <;> rfl

/-- Without an event at the head of the schedule a step is the machine's own (R9). -/
theorem step_quiet {s : State} (hquiet : s.quiet) : step s = machineStep s.onward := by
  rcases step_cases s with ⟨e, rest, hin, -⟩ | ⟨-, hstep⟩
  · simp [State.quiet, hin] at hquiet
  · exact hstep

theorem step_of_run {s u : State} (hquiet : s.quiet) (hd : s.onward.decision = .run u) : step s = runInstruction u := by
  rw [step_quiet hquiet, machineStep, hd]

/-- Settles O13. -/
theorem boundaryDecisionFollowsCandidate : Obligations.BoundaryDecisionFollowsCandidate := by
  refine ⟨fun s hrunning => ⟨decision_of_no_candidate hrunning, fun cand hcand => ?_⟩, fun s u cand => step_of_enter,
    fun s u => step_of_run⟩
  intro bound
  have hbound : Device.skidMax s.device cand = bound := skidMax_eq s.device cand
  have hdecision := decision_of_candidate hrunning hcand
  rw [hbound] at hdecision
  refine ⟨fun hold => ?_, fun hnew => ?_, fun τ hτ hhard => ?_⟩
  · rw [hdecision, if_neg hold.not_gt]
  · rw [hdecision, if_pos hnew]
  · have hzero : bound = 0 := by rw [← hbound, hτ, skidMax_hard s.device hhard]
    rw [hdecision, hzero, if_neg (Nat.not_lt_zero _)]

/-- The step of an instruction at an implemented address: its meaning, then the loop's rule (R133, R176). -/
theorem runInstruction_decoded {s : State} {i : Instr} (himp : Device.progImplemented s.device s.pc.toNat = true)
    (hlisted : s.progListed s.pc.toNat = true)
    (hdecode : decode (s.progRead s.pc.toNat) (s.progRead (s.pc.toNat + 2)) = .ok i) :
    runInstruction s = afterIteration s (exec i s) := by
  have hfetch : s.fetch = .next i := by simp only [State.fetch, hlisted, if_true, hdecode]
  simp only [runInstruction, himp, if_true, hfetch]

/-- Without a loop at it an instruction is followed by nothing (R176). -/
theorem afterIteration_of_no_loop {s : State} (h : s.loopLive = none) (o : Host.Outcome State Fault Refusal) :
    afterIteration s o = o := by
  cases o with
  | next t => rw [afterIteration, continueLoop, h]
  | fault e | refused r => rfl

/-- Settles O12: the decision leaves the PC, program memory and the device as they are. -/
theorem stepRunsDecodedInstruction : Obligations.StepRunsDecodedInstruction := by
  intro s i hquiet himp hlisted hdecode
  have hrun : ∀ u, s.onward.decision = .run u →
      step s = afterIteration u (exec i u) ∧ (u.loopLive = none → step s = exec i u) := fun u hd => by
    have hstep : step s = afterIteration u (exec i u) := by
      rw [step_of_run hquiet hd]
      obtain ⟨-, ⟨-, rfl⟩ | ⟨-, -, -, rfl⟩⟩ := decision_run hd <;> exact runInstruction_decoded himp hlisted hdecode
    exact ⟨hstep, fun hnone => hstep.trans (afterIteration_of_no_loop hnone _)⟩
  exact ⟨hrun, fun hrunning hnone => hrun _ (decision_of_no_candidate (s := s.onward) hrunning hnone)⟩

/-! ### Waking up -/

theorem wakes_iff (s : State) : s.wakes = true ↔
    ∃ i, s.irqPresent i = true ∧ s.irqFlag i = true ∧ s.irqEnable i = true ∧ 1 ≤ s.irqLevel i := by
  simp only [State.wakes, List.any_eq_true, List.mem_range, Bool.and_eq_true, decide_eq_true_eq, and_assoc]
  exact exists_congr fun i => and_iff_right_of_imp fun ⟨hpresent, _⟩ => lt_of_irqPresent hpresent

/-- The machine's step while asleep (R250). -/
theorem machineStep_asleep {s : State} (h : s.runState ≠ .running) :
    machineStep s = .next (if s.wakes then { s with runState := .running } else s) := by
  have hdecision : s.decision = if s.wakes then .wake else .wait := by
    unfold State.decision
    split
    · exact absurd ‹_› h
    · rfl
    · rfl
  rw [machineStep, hdecision]
  cases s.wakes <;> rfl

/-- Settles O56. -/
theorem enabledSourceWakesTheMachine : Obligations.EnabledSourceWakesTheMachine := by
  intro s hquiet hasleep
  have hstep : step s = .next (if s.onward.wakes then { s.onward with runState := .running } else s.onward) :=
    (step_quiet hquiet).trans (machineStep_asleep (s := s.onward) hasleep)
  refine ⟨fun hsource => ?_, fun hall => ?_⟩
  · rw [hstep, if_pos ((wakes_iff s.onward).2 hsource)]
  · rw [hstep, if_neg]
    intro hwakes
    obtain ⟨i, hpresent, hflag, henable, hlevel⟩ := (wakes_iff s.onward).1 hwakes
    have hzero : s.irqLevel i = 0 := hall i hpresent hflag henable
    exact absurd (hlevel.trans_eq hzero) (by decide)

/-! ### Vectors -/

theorem candidate_cases {s : State} {c : Candidate} (h : s.candidate = some c) :
    (∃ τ, c = .trap τ ∧ s.pendingTrap = some τ) ∨ ∃ i, c = .irq i ∧ s.winner = some i := by
  cases htrap : s.pendingTrap with
  | some τ =>
    rw [candidate_of_pendingTrap htrap, Option.some.injEq] at h
    exact .inl ⟨τ, h.symm, rfl⟩
  | none =>
    rw [candidate_of_no_trap htrap, Option.map_eq_some_iff] at h
    obtain ⟨i, hwin, rfl⟩ := h
    exact .inr ⟨i, rfl, hwin⟩

/-- No candidate has a vector that R229 reserves below 8: the traps have 1 to 4, the interrupts 8 and above. -/
theorem vector_ranges (c : Candidate) : (1 ≤ c.vector ∧ c.vector ≤ 4) ∨ 8 ≤ c.vector := by
  cases c with
  | trap τ => exact .inl (by cases τ <;> decide)
  | irq i => exact .inr (Nat.le_add_left 8 i)

/-- Settles O58. -/
theorem vectorsAndLevelsFollowTheTables : Obligations.VectorsAndLevelsFollowTheTables := by
  refine fun s => ⟨rfl, fun i => rfl, fun v hv => ⟨fun halt => ?_, fun halt => ?_⟩, fun c => ?_, fun c hc => ?_⟩
  · have haddr : s.vectorAddr v = 0x000004 + 2 * v := by rw [State.vectorAddr, State.altivt, halt]; rfl
    exact ⟨haddr, by omega⟩
  · have haddr : s.vectorAddr v = 0x000084 + 2 * v := by rw [State.vectorAddr, State.altivt, halt]; rfl
    exact ⟨haddr, by omega⟩
  · have := vector_ranges c
    omega
  · rcases candidate_cases hc with ⟨τ, rfl, -⟩ | ⟨i, rfl, hwin⟩
    · cases τ <;> decide
    · obtain ⟨hpresent, -⟩ := (eligible_iff s i).1 (eligible_of_winner hwin)
      have hlt := lt_of_irqPresent hpresent
      show i + 8 ≤ 52
      omega

end Sys2Proof.Machine
end

section
/-! PROOFS. Traps raised: the conflicts that reset the device, and the address error of a jump. -/

namespace Sys2Proof.Machine

/-! ### Conflicts -/

/-- When a raise resets the device (R212, R228): a hard trap, the CPU at its level or above, or a greater trap pending. -/
theorem conflicts_iff (s : State) (τ : Trap) : s.conflicts τ = true ↔ 13 ≤ τ.level ∧
    (τ.level ≤ s.cpuIpl ∨ ∃ τ' : Trap, τ.level < τ'.level ∧ s.trapFlag τ' = true ∧ s.cpuIpl < τ'.level) := by
  simp only [State.conflicts, Trap.hard, State.hardConflict, Bool.and_eq_true, Bool.or_eq_true, decide_eq_true_eq,
    List.any_eq_true, mem_traps, true_and, and_assoc]

/-- The bit of INTCON1 that a trap's flag is (R212). -/
theorem flagTrap_eq (s : State) (τ : Trap) : s.flagTrap τ = { s with intcon1 := s.intcon1 ||| match τ with
    | .oscFail => 0x0002
    | .stkErr => 0x0004
    | .addrErr => 0x0008
    | .mathErr => 0x0010 } := by
  cases τ <;> rfl

/-- The Reset of a conflict sets TRAPR (R228, R281). -/
theorem deviceReset_trapConflict_trapr (s : State) : (deviceReset .trapConflict s).trapr = true := by
  simp only [deviceReset, if_true]

/-- Settles O54. -/
theorem hardTrapConflictResets : Obligations.HardTrapConflictResets := by
  intro s τ conflict flag
  have hconflict : s.conflicts τ = true ↔ conflict := conflicts_iff s τ
  have hflag : s.flagTrap τ = { s with intcon1 := s.intcon1 ||| flag } := flagTrap_eq s τ
  refine ⟨hconflict, fun hc => ?_, fun hc => ?_⟩
  · have hraise : s.raiseTrap τ = deviceReset .trapConflict s := if_pos (hconflict.2 hc)
    refine ⟨hraise, hraise ▸ deviceReset_trapConflict_trapr s, fun c hst => ?_⟩
    subst hst
    exact raise_of_conflicts (hconflict.2 hc)
  · have hnot : s.conflicts τ = false := Bool.eq_false_of_not_eq_true (mt hconflict.1 hc)
    have hraise : s.raiseTrap τ = s.flagTrap τ := if_neg (mt hconflict.1 hc)
    refine ⟨hraise.trans hflag, fun c hst => ?_⟩
    subst hst
    rw [raise_of_not_conflicts hnot, Cpu.update, hflag]

/-! ### Raises inside a step -/

/-- A step in the state `s` that has not written DISICNT, its data writes inhibited or not (R223). -/
def inStep (s : State) (inhibit : Bool) : Cpu := { st := s, inhibit := inhibit }

@[simp] theorem inStep_st (s : State) (i : Bool) : (inStep s i).st = s := rfl
@[simp] theorem inStep_inhibit (s : State) (i : Bool) : (inStep s i).inhibit = i := rfl
@[simp] theorem inStep_disiWritten (s : State) (i : Bool) : (inStep s i).disiWritten = false := rfl
@[simp] theorem inStep_update (s : State) (i : Bool) (f : State → State) : (inStep s i).update f = inStep (f s) i := rfl

theorem start_eq_inStep (s : State) : start s = inStep s false := rfl

/-- An address error that is no conflict sets its flag and inhibits the step's writes (R212, R223). -/
theorem addressError_ok {s : State} {i : Bool} (h : s.conflicts .addrErr = false) :
    addressError (inStep s i) = .ok () (inStep (s.flagTrap .addrErr) true) :=
  raise_of_not_conflicts (c := inStep s true) h

/-- One that is resets the device (R228). -/
theorem addressError_reset {s : State} {i : Bool} (h : s.conflicts .addrErr = true) :
    addressError (inStep s i) = .reset (deviceReset .trapConflict s) :=
  raise_of_conflicts (c := inStep s true) h

/-! ### Jumps and execution outside program memory -/

/-- Inside program space the target of BRA is the sum itself (R173). -/
theorem bra_target_toNat {n : BitVec 16} {pc : PC} (h0 : 0 ≤ (pc.toNat : Int) + 2 + 2 * n.toInt)
    (h1 : (pc.toNat : Int) + 2 + 2 * n.toInt < 2 ^ 23) :
    (BitVec.ofInt 23 ((pc.toNat : Int) + 2 + 2 * n.toInt)).toNat = ((pc.toNat : Int) + 2 + 2 * n.toInt).toNat := by
  rw [BitVec.toNat_ofInt]
  omega

/-- The target of GOTO is twice its literal (R172). -/
theorem goto_target_toNat (n : BitVec 22) : (n ++ 0#1).toNat = 2 * n.toNat := by
  rw [BitVec.toNat_append]
  simp [Nat.shiftLeft_eq, Nat.mul_comm]

/-- A jump to `p`, where `p` is not implemented, raises the address error and completes (R222). -/
theorem jumpLiteral_unimplemented (i : Instr) {s : State} {p : PC} (himp : Device.progImplemented s.device p.toNat = false) :
    jumpLiteral i s (start { s with pc := p }) =
      (addressError (start { s with pc := p })).bind fun _ c => .ok () (retire i s c) := by
  simp only [jumpLiteral, start_st, himp, Bool.false_eq_true, if_false]

theorem jumpLiteral_raises (i : Instr) {s : State} {p : PC} (himp : Device.progImplemented s.device p.toNat = false)
    (h : s.conflicts .addrErr = false) : (jumpLiteral i s (start { s with pc := p })).outcome =
      .next { s.finished p 0 (cycles i s) with intcon1 := s.intcon1 ||| 0x0008 } := by
  rw [jumpLiteral_unimplemented i himp, start_eq_inStep, addressError_ok (s := { s with pc := p }) h, bind_ok, outcome_ok, retire_counts rfl,
    countDown_eq]
  rfl

/-- Where the raise is a conflict the jump ends in the Reset (R228). -/
theorem jumpLiteral_resets (i : Instr) {s : State} {p : PC} (himp : Device.progImplemented s.device p.toNat = false)
    (h : s.conflicts .addrErr = true) : (jumpLiteral i s (start { s with pc := p })).outcome =
      .next (deviceReset .trapConflict s) := by
  rw [jumpLiteral_unimplemented i himp, start_eq_inStep, addressError_reset (s := { s with pc := p }) h]
  rfl

/-- A step of the machine whose PC is not implemented raises the address error (R222 scenario 5). -/
theorem step_of_unimplemented_pc {s : State} (hquiet : s.quiet) (hrunning : s.runState = .running)
    (hnone : s.onward.candidate = none) (himp : Device.progImplemented s.device s.pc.toNat = false) :
    step s = .next (({ s.onward with acceptAge := 0 } : State).raiseTrap .addrErr) := by
  have himp : ¬ Device.progImplemented ({ s.onward with acceptAge := 0 } : State).device
      ({ s.onward with acceptAge := 0 } : State).pc.toNat = true := Bool.not_eq_true _ ▸ himp
  rw [step_of_run hquiet (decision_of_no_candidate (s := s.onward) hrunning hnone), runInstruction, if_neg himp]

/-- Settles O28. -/
theorem unimplementedTargetsRaiseAddressError : Obligations.UnimplementedTargetsRaiseAddressError := by
  refine fun s => ⟨fun n h0 h1 himp => ?_, fun n himp => ?_, fun hquiet hrunning hnone himp => ?_⟩
  · rw [← bra_target_toNat h0 h1] at himp
    have hexec : exec (.bra n) s = (jumpLiteral (.bra n) s (start
        { s with pc := BitVec.ofInt 23 ((s.pc.toNat : Int) + 2 + 2 * n.toInt) })).outcome :=
      congrArg (fun c => (jumpLiteral (.bra n) s c).outcome) (movePc_bra h0 h1)
    exact ⟨fun h => hexec.trans (jumpLiteral_raises _ himp h), fun h => hexec.trans (jumpLiteral_resets _ himp h)⟩
  · rw [← goto_target_toNat] at himp
    exact ⟨jumpLiteral_raises _ himp, jumpLiteral_resets _ himp⟩
  · have hstep := step_of_unimplemented_pc hquiet hrunning hnone himp
    refine ⟨fun h => hstep.trans ?_, fun h => hstep.trans ?_⟩
    · have hnot : ¬ ({ s.onward with acceptAge := 0 } : State).conflicts .addrErr = true := Bool.not_eq_true _ ▸ h
      rw [State.raiseTrap, if_neg hnot]
      rfl
    · have hconflict : ({ s.onward with acceptAge := 0 } : State).conflicts .addrErr = true := h
      rw [State.raiseTrap, if_pos hconflict]
      rfl

end Sys2Proof.Machine
end

section
/-! PROOFS. Data accesses that fail: what a step's state is made of when the stack error and the address error have been raised in it, the
reads and writes that raise the address error, and the pushes and pops they are part of. -/

namespace Sys2Proof.Machine

/-! ### The flags that failed accesses set -/

/-- The address error flag set where an access has `failed`, and `n` free values drawn for the reads that did (R221, U6). -/
def State.failing (s : State) (failed : Prop) [Decidable failed] (n : Nat) : State :=
  { s with intcon1 := if failed then s.intcon1 ||| 0x0008 else s.intcon1, draws := s.draws + n }

theorem flagTrap_addrErr (s : State) : s.flagTrap .addrErr = s.failing True 0 := flagTrap_eq s .addrErr

section
variable (s : State) (p q : Prop) [Decidable p] [Decidable q] (m n : Nat)

theorem failing_stackError : (s.failing p n).stackError q = (s.stackError q).failing p n := by
  by_cases hp : p <;> by_cases hq : q <;> simp [State.failing, State.stackError, hp, hq, BitVec.or_assoc]

theorem failing_failing : (s.failing p m).failing q n = s.failing (p ∨ q) (m + n) := by
  by_cases hp : p <;> by_cases hq : q <;> simp [State.failing, hp, hq, BitVec.or_assoc, Nat.add_assoc]

theorem failing_putW (r : WReg) (v : Word) : (s.failing p n).putW r v = (s.putW r v).failing p n := rfl

theorem stackError_putW (r : WReg) (v : Word) : (s.stackError p).putW r v = (s.putW r v).stackError p := rfl

/-- What the statements write of a step that has raised the address error. -/
theorem stackError_failing {failed : Prop} [Decidable failed] (h : failed) : (s.stackError p).failing failed n =
    { s with intcon1 := s.intcon1 ||| if p then 0x000C else 0x0008, draws := s.draws + n } := by
  by_cases hp : p <;> simp [State.failing, State.stackError, h, hp, BitVec.or_assoc]

/-- Whether an address error conflicts depends on SR, CORCON and OSCFAIL alone (R228). -/
theorem conflicts_addrErr_congr {s t : State} (hsr : t.sr = s.sr) (hcorcon : t.corcon = s.corcon)
    (hosc : t.intcon1.getLsbD 1 = s.intcon1.getLsbD 1) : t.conflicts .addrErr = s.conflicts .addrErr := by
  rw [conflicts_addrErr, conflicts_addrErr, cpuIpl_congr hsr hcorcon]
  exact congrArg (fun b => _ || (b && _)) hosc

theorem conflicts_stackError : (s.stackError p).conflicts .addrErr = s.conflicts .addrErr := by
  refine conflicts_addrErr_congr rfl rfl ?_
  by_cases hp : p <;> simp [hp]

theorem conflicts_failing : (s.failing p n).conflicts .addrErr = s.conflicts .addrErr := by
  refine conflicts_addrErr_congr rfl rfl ?_
  by_cases hp : p <;> simp [State.failing, hp]

end

/-! ### Accesses -/

/-- The stack limit check (R215): `past` says that it fails. -/
theorem stackLimit_eq {viaW15 : Bool} {ea : Word} {c : Cpu} {past : Prop} [Decidable past]
    (hpast : viaW15 = true ∧ c.st.splimArmed = true ∧ c.st.splim.toNat < ea.toNat ↔ past) :
    stackLimit viaW15 ea c = c.update fun s => s.stackError past := by
  have hcheck : (viaW15 && c.st.splimArmed && decide (c.st.splim < ea)) = true ↔ past := by
    rw [← hpast, Bool.and_eq_true, Bool.and_eq_true, decide_eq_true_eq, and_assoc]
    rfl
  rw [stackLimit, ite_softTrap_stkErr]
  exact congrArg c.update (funext fun s => stackError_congr s hcheck)

/-- An access that raises the address error where it reads: at an odd address, or where nothing is implemented (R221). -/
abbrev State.unreadable (s : State) (ea : Word) : Prop := ea.getLsbD 0 = true ∨ Device.dataImplemented s.device ea.toNat = false

/-- What a read gives: a free value where it has `failed`, else the word in memory (R221, log 1). -/
def State.tried (s : State) (failed : Prop) [Decidable failed] (ea : Word) : Word :=
  if failed then Config.freeWord s.draws else s.dataWord ea

theorem tried_of_not {s : State} {failed : Prop} [Decidable failed] {ea : Word} (h : ¬ failed) : s.tried failed ea = s.dataWord ea :=
  if_neg h

section
variable {s : State} {i : Bool} {viaW15 : Bool} {ea : Word} {past : Prop} [Decidable past]
  (hpast : viaW15 = true ∧ s.splimArmed = true ∧ s.splim.toNat < ea.toNat ↔ past)
include hpast

/-- A word read where no register can stand: the limit check, and then a failed read or the word in memory. -/
theorem readWord_tried (hdata : ea.getLsbD 0 = true ∨ 0x0800 ≤ ea.toNat) : readWord ea viaW15 (inStep s i) =
    if s.unreadable ea then failedRead (inStep (s.stackError past) i)
    else .ok (s.dataWord ea) (inStep (s.stackError past) i) := by
  unfold readWord
  rw [stackLimit_eq (c := inStep s i) hpast, inStep_update]
  by_cases hodd : ea.getLsbD 0 = true
  · rw [if_pos hodd, if_pos (.inl hodd)]
  · rw [if_neg hodd, if_neg (not_lt_0800 (hdata.resolve_left hodd)), inStep_st, stackError_device]
    by_cases himp : Device.dataImplemented s.device ea.toNat = true
    · rw [if_pos himp, if_neg (not_or.2 ⟨hodd, by simp [himp]⟩)]
      rfl
    · rw [if_neg himp, if_pos (.inr (Bool.eq_false_of_not_eq_true himp))]

/-- Where a failed read is no conflict, its value is free (R221, log 1). -/
theorem readWord_data {failed : Prop} [Decidable failed] (hfailed : s.unreadable ea ↔ failed)
    (hdata : ea.getLsbD 0 = true ∨ 0x0800 ≤ ea.toNat) (h : failed → s.conflicts .addrErr = false) : readWord ea viaW15 (inStep s i) =
      .ok (s.tried failed ea) (inStep ((s.stackError past).failing failed (if failed then 1 else 0)) (i || decide failed)) := by
  rw [State.tried, readWord_tried hpast hdata]
  by_cases hf : failed
  · rw [if_pos (hfailed.2 hf), failedRead, addressError_ok ((conflicts_stackError s past).trans (h hf)), bind_ok]
    simp [hf, State.failing, flagTrap_eq, Cpu.drawWord]
  · rw [if_neg (mt hfailed.1 hf)]
    simp only [hf, State.failing, if_false, Nat.add_zero, decide_false, Bool.or_false]

/-- Where it is one, the device is Reset (R228). -/
theorem readWord_reset (hfailed : s.unreadable ea) (hdata : ea.getLsbD 0 = true ∨ 0x0800 ≤ ea.toNat)
    (h : s.conflicts .addrErr = true) : readWord ea viaW15 (inStep s i) = .reset (deviceReset .trapConflict s) := by
  rw [readWord_tried hpast hdata, if_pos hfailed, failedRead, addressError_reset ((conflicts_stackError s past).trans h)]
  rfl

/-- A word write to an odd address stores nothing (R221, R223). -/
theorem writeWord_odd (v : Word) (hodd : ea.getLsbD 0 = true) (h : s.conflicts .addrErr = false) :
    writeWord ea v viaW15 (inStep s i) = .ok () (inStep ((s.stackError past).failing True 0) true) := by
  unfold writeWord
  rw [stackLimit_eq (c := inStep s i) hpast, if_pos hodd, inStep_update, addressError_ok ((conflicts_stackError s past).trans h),
    flagTrap_addrErr]

theorem writeWord_odd_reset (v : Word) (hodd : ea.getLsbD 0 = true) (h : s.conflicts .addrErr = true) :
    writeWord ea v viaW15 (inStep s i) = .reset (deviceReset .trapConflict s) := by
  unfold writeWord
  rw [stackLimit_eq (c := inStep s i) hpast, if_pos hodd, inStep_update, addressError_reset ((conflicts_stackError s past).trans h)]
  rfl

/-- A step that has raised the address error stores no word (R223). -/
theorem writeWord_inhibited (v : Word) (heven : ea.getLsbD 0 = false) :
    writeWord ea v viaW15 (inStep s true) = .ok () (inStep (s.stackError past) true) := by
  unfold writeWord
  rw [stackLimit_eq (c := inStep s true) hpast]
  simp only [heven, Bool.false_eq_true, if_false, inStep_update, inStep_inhibit, if_true]

end

/-! ### The stack -/

/-- W15 moved by `d`, with the checks of the sum and of the new pointer (R214, R216). -/
theorem writeW15_pointerAdd {d : Int} {c : Cpu} {v : Word} (hv : c.st.getW 15 + BitVec.ofInt 16 d = v) {bad : Prop} [Decidable bad]
    (hbad : (((c.st.getW 15).toNat : Int) + d < 0 ∨ 0xFFFF < ((c.st.getW 15).toNat : Int) + d) ∨ v.toNat < 0x0800 ↔ bad) :
    writeW 15 (pointerAdd 15 d c).1 (pointerAdd 15 d c).2 = c.update fun s => (s.putW 15 v).stackError bad := by
  rw [pointerAdd_fst, hv, writeW, ite_softTrap_stkErr, pointerAdd, ite_softTrap_stkErr]
  exact congrArg c.update (funext fun s => (stackError_putW_stackError s 15 v _ _).trans
    (stackError_congr _ ((or_congr (and_iff_right rfl) (and_iff_right rfl)).trans hbad)))

/-- A push: the store, then W15 two higher; where the sum wraps the new pointer is below 0x0800 (R7, R214, R216). -/
theorem push16_eq (v : Word) (c : Cpu) : push16 v c = (writeWord (c.st.getW 15) v true c).bind fun _ c =>
    .ok () (c.update fun s => (s.putW 15 (c.st.getW 15 + 2)).stackError ((c.st.getW 15 + 2).toNat < 0x0800)) := by
  unfold push16
  congr 1
  funext _ c
  have hlt := (c.st.getW 15).isLt
  rw [writeW15_pointerAdd (v := c.st.getW 15 + 2) rfl (bad := (c.st.getW 15 + 2).toNat < 0x0800) (by bv_omega)]

/-- A pop: W15 two lower with its checks, then the read (R7, R214, R216). -/
theorem pop16_eq (c : Cpu) : pop16 c = readWord (c.st.getW 15 - 2) true (c.update fun s =>
    (s.putW 15 (c.st.getW 15 - 2)).stackError ((c.st.getW 15).toNat < 2 ∨ (c.st.getW 15 - 2).toNat < 0x0800)) := by
  have hlt := (c.st.getW 15).isLt
  have hv : c.st.getW 15 + BitVec.ofInt 16 (-2) = c.st.getW 15 - 2 := by
    rw [BitVec.sub_eq_add_neg]
    rfl
  have hwrap : ((c.st.getW 15).toNat : Int) + -2 < 0 ∨ 0xFFFF < ((c.st.getW 15).toNat : Int) + -2 ↔ (c.st.getW 15).toNat < 2 := by
    omega
  rw [pop16, writeW15_pointerAdd hv (or_congr_left hwrap), pointerAdd_fst, hv]

/-- The stack limit of an access through `r`, and of one by the stack (R215). -/
theorem pastLimit_iff (s : State) (r : WReg) (ea : Word) :
    decide (r = 15) = true ∧ s.splimArmed = true ∧ s.splim.toNat < ea.toNat ↔ s.pastLimit r ea := by
  rw [decide_eq_true_eq]

theorem pastLimit_stack (s : State) (ea : Word) :
    true = true ∧ s.splimArmed = true ∧ s.splim.toNat < ea.toNat ↔ s.pastLimit 15 ea := pastLimit_iff s 15 ea

/-- Where a push fails a stack check: the new pointer, or the limit (R214 to R216). -/
abbrev State.pushFlags (s : State) : Prop := (s.getW 15 + 2).toNat < 0x0800 ∨ s.pastLimit 15 (s.getW 15)

/-- Where a pop does: the sum, the new pointer, or the limit (R214 to R216). -/
abbrev State.popFlags (s : State) : Prop :=
  ((s.getW 15).toNat < 2 ∨ (s.getW 15 - 2).toNat < 0x0800) ∨ s.pastLimit 15 (s.getW 15 - 2)

/-- A push whose store, with its limit check, makes `t` of `s`. -/
theorem push16_of_write {s t : State} {v : Word} {i j : Bool} {bad : Prop} [Decidable bad] (hbad : s.pushFlags ↔ bad)
    (hwrite : writeWord (s.getW 15) v true (inStep s i) = .ok () (inStep (t.stackError (s.pastLimit 15 (s.getW 15))) j))
    (hw : t.w = s.w) : push16 v (inStep s i) = .ok () (inStep ((t.putW 15 (s.getW 15 + 2)).stackError bad) j) := by
  have htop : (t.stackError (s.pastLimit 15 (s.getW 15))).getW 15 = s.getW 15 := congrArg (·.get 15) hw
  rw [push16_eq, inStep_st, hwrite, bind_ok, inStep_st, htop, inStep_update, stackError_putW_stackError,
    stackError_congr _ (or_comm.trans hbad)]

section
variable {s : State} {i : Bool} {bad : Prop} [Decidable bad] (v : Word)

/-- A push on an odd stack pointer stores nothing and moves W15 as ever (R221, R246). -/
theorem push16_odd (hbad : s.pushFlags ↔ bad) (hodd : (s.getW 15).getLsbD 0 = true) (h : s.conflicts .addrErr = false) :
    push16 v (inStep s i) = .ok () (inStep (((s.putW 15 (s.getW 15 + 2)).stackError bad).failing True 0) true) := by
  rw [← failing_stackError, ← failing_putW]
  refine push16_of_write hbad ?_ rfl
  rw [failing_stackError]
  exact writeWord_odd (pastLimit_stack s _) v hodd h

theorem push16_odd_reset (hodd : (s.getW 15).getLsbD 0 = true) (h : s.conflicts .addrErr = true) :
    push16 v (inStep s i) = .reset (deviceReset .trapConflict s) := by
  rw [push16_eq, inStep_st, writeWord_odd_reset (pastLimit_stack s _) v hodd h, bind_reset]

/-- A push in a step that has raised the address error stores nothing (R223). -/
theorem push16_inhibited (hbad : s.pushFlags ↔ bad) (heven : (s.getW 15).getLsbD 0 = false) :
    push16 v (inStep s true) = .ok () (inStep ((s.putW 15 (s.getW 15 + 2)).stackError bad) true) :=
  push16_of_write hbad (writeWord_inhibited (pastLimit_stack s _) v heven) rfl

/-- A push at or above 0x0800 stores, whatever its checks find, where data memory is implemented (R215, R216, D27). -/
theorem push16_stored (hbad : s.pushFlags ↔ bad) (heven : (s.getW 15).getLsbD 0 = false) (hlo : 0x0800 ≤ (s.getW 15).toNat) :
    push16 v (start s) = .ok () (start (((s.stored (s.getW 15) v).putW 15 (s.getW 15 + 2)).stackError bad)) :=
  push16_of_write hbad (writeWord_checked (r := 15) v heven hlo Iff.rfl) (by rw [stored_frame])

end

section
variable {s : State} {i : Bool} {bad : Prop} [Decidable bad]

theorem popped_stackError (hbad : s.popFlags ↔ bad) :
    ((popped s).stackError ((s.getW 15).toNat < 2 ∨ (s.getW 15 - 2).toNat < 0x0800)).stackError
      (s.pastLimit 15 (s.getW 15 - 2)) = (popped s).stackError bad :=
  (stackError_stackError _ _ _).trans (stackError_congr _ hbad)

/-- A pop of a word that can be read once its checks are made. -/
theorem pop16_checked {v : Word} {e : Nat} (hbad : s.popFlags ↔ bad)
    (h : ((popped s).stackError bad).readableAs (s.getW 15 - 2) v e) :
    pop16 (start s) = .ok v (start { (popped s).stackError bad with draws := s.draws + e }) := by
  rw [← popped_stackError hbad] at h ⊢
  rw [pop16_eq]
  exact readWord_checked (r := 15) Iff.rfl h

/-- What a pop leaves that has been tried: W15 two lower, the flags of its checks and of its read. -/
def State.popTried (s : State) (bad failed : Prop) [Decidable bad] [Decidable failed] : State :=
  ((popped s).stackError bad).failing failed (if failed then 1 else 0)

/-- A pop where no register can stand: a free value where the read raises the address error, else the word in memory (R221). -/
theorem pop16_data {failed : Prop} [Decidable failed] (hbad : s.popFlags ↔ bad)
    (hdata : (s.getW 15 - 2).getLsbD 0 = true ∨ 0x0800 ≤ (s.getW 15 - 2).toNat)
    (hfailed : s.unreadable (s.getW 15 - 2) ↔ failed) (h : failed → s.conflicts .addrErr = false) :
    pop16 (inStep s i) = .ok (s.tried failed (s.getW 15 - 2)) (inStep (s.popTried bad failed) (i || decide failed)) := by
  have hread := readWord_data
    (s := (popped s).stackError ((s.getW 15).toNat < 2 ∨ (s.getW 15 - 2).toNat < 0x0800)) (i := i)
    (pastLimit_stack s (s.getW 15 - 2)) hfailed hdata fun hf => (conflicts_stackError _ _).trans (h hf)
  rw [popped_stackError hbad] at hread
  rw [pop16_eq]
  exact hread

theorem pop16_reset (hdata : (s.getW 15 - 2).getLsbD 0 = true ∨ 0x0800 ≤ (s.getW 15 - 2).toNat)
    (hfailed : s.unreadable (s.getW 15 - 2)) (h : s.conflicts .addrErr = true) :
    pop16 (inStep s i) = .reset (deviceReset .trapConflict s) := by
  rw [pop16_eq]
  exact readWord_reset (s := (popped s).stackError _) (pastLimit_stack s _) hfailed hdata ((conflicts_stackError _ _).trans h)

end

theorem popTried_conflicts (s : State) (bad failed : Prop) [Decidable bad] [Decidable failed] :
    (s.popTried bad failed).conflicts .addrErr = s.conflicts .addrErr :=
  (conflicts_failing _ _ _).trans (conflicts_stackError _ _)

theorem popped_getW_sub (s : State) : (popped s).getW 15 - 2 = s.getW 15 - 4 := by rw [getW_putW_same, sub_two_sub_two]

/-- The flags of two pops together. -/
theorem popTried_popTried (s : State) (bad1 bad2 failed1 failed2 : Prop) [Decidable bad1] [Decidable bad2] [Decidable failed1]
    [Decidable failed2] : (s.popTried bad1 failed1).popTried bad2 failed2 =
      ((s.putW 15 (s.getW 15 - 4)).stackError (bad1 ∨ bad2)).failing (failed1 ∨ failed2)
        ((if failed1 then 1 else 0) + if failed2 then 1 else 0) := by
  have hmove : popped (s.popTried bad1 failed1) =
      ((popped (popped s)).stackError bad1).failing failed1 (if failed1 then 1 else 0) := rfl
  rw [State.popTried, hmove, failing_stackError, stackError_stackError, failing_failing, popped, popped_getW_sub, putW_putW_same]

/-- Two pops where no register can stand, the second from where the first has left W15 (R152, R174). -/
theorem popFrame_data {s : State} {failed1 failed2 bad : Prop} [Decidable failed1] [Decidable failed2] [Decidable bad]
    (hbad : s.popFlags ∨ (popped s).popFlags ↔ bad) (hdata1 : (s.getW 15 - 2).getLsbD 0 = true ∨ 0x0800 ≤ (s.getW 15 - 2).toNat)
    (hdata2 : (s.getW 15 - 4).getLsbD 0 = true ∨ 0x0800 ≤ (s.getW 15 - 4).toNat)
    (hfailed1 : s.unreadable (s.getW 15 - 2) ↔ failed1) (hfailed2 : s.unreadable (s.getW 15 - 4) ↔ failed2)
    (h : s.conflicts .addrErr = false) : ∃ hi lo i, (¬ failed1 → hi = s.dataWord (s.getW 15 - 2)) ∧
      (¬ failed2 → lo = s.dataWord (s.getW 15 - 4)) ∧ ∀ f, popFrame (start s) f = .ok () (f hi lo (inStep
        (((s.putW 15 (s.getW 15 - 4)).stackError bad).failing (failed1 ∨ failed2)
          ((if failed1 then 1 else 0) + if failed2 then 1 else 0)) i)) := by
  have hfirst := pop16_data (i := false) (bad := s.popFlags) Iff.rfl hdata1 hfailed1 fun _ => h
  have hsecond := pop16_data (s := s.popTried s.popFlags failed1) (i := decide failed1) (bad := (popped s).popFlags)
    (failed := failed2) Iff.rfl (popped_getW_sub s ▸ hdata2) (popped_getW_sub s ▸ hfailed2)
    fun _ => (popTried_conflicts s _ _).trans h
  rw [popTried_popTried, stackError_congr _ hbad] at hsecond
  refine ⟨s.tried failed1 (s.getW 15 - 2), (s.popTried s.popFlags failed1).tried failed2 ((popped s).getW 15 - 2),
    decide failed1 || decide failed2, tried_of_not, fun hf => (tried_of_not hf).trans ?_, fun f => ?_⟩
  · rw [popped_getW_sub]
    rfl
  · rw [popFrame, start_eq_inStep, hfirst, bind_ok, Bool.false_or, hsecond]
    rfl

/-- Where the first pop that fails is a conflict, nothing has been drawn before it (R228). -/
theorem popFrame_reset {s : State} (hdata1 : (s.getW 15 - 2).getLsbD 0 = true ∨ 0x0800 ≤ (s.getW 15 - 2).toNat)
    (hdata2 : (s.getW 15 - 4).getLsbD 0 = true ∨ 0x0800 ≤ (s.getW 15 - 4).toNat)
    (hfailed : s.unreadable (s.getW 15 - 2) ∨ s.unreadable (s.getW 15 - 4)) (h : s.conflicts .addrErr = true)
    (f : (hi lo : Word) → Cpu → Cpu) : popFrame (start s) f = .reset (deviceReset .trapConflict s) := by
  by_cases hfirst : s.unreadable (s.getW 15 - 2)
  · rw [popFrame, start_eq_inStep, pop16_reset hdata1 hfirst h, bind_reset]
  · have hsecond := hfailed.resolve_left hfirst
    rw [popFrame, start_eq_inStep, pop16_data (bad := s.popFlags) (failed := False) Iff.rfl hdata1 (iff_false_intro hfirst) nofun,
      bind_ok, pop16_reset (s := s.popTried s.popFlags False) (popped_getW_sub s ▸ hdata2) (popped_getW_sub s ▸ hsecond)
        ((popTried_conflicts s _ _).trans h)]
    rfl

end Sys2Proof.Machine
end

section
/-! PROOFS. Instructions whose accesses fail on the stack: PUSH, POP, RETURN and RETFIE. -/

namespace Sys2Proof.Machine

/-! ### Ends of instructions -/

/-- The end of an instruction in which an access has failed. -/
theorem exists_finished_failing (i : Instr) (s : State) (words : Nat) {u : State} {bad failed : Prop} [Decidable bad] [Decidable failed]
    {n : Nat} {inhibit : Bool} (hfailed : failed) (hpc : u.pc = s.pc) : ∃ p d, s.pcPast words p d ∧
      (retire i s (advance words (inStep ((u.stackError bad).failing failed n) inhibit))).st =
        { u.finished p (n + d) (cycles i s) with intcon1 := u.intcon1 ||| if bad then 0x000C else 0x0008 } := by
  obtain ⟨p, d, hp, hend⟩ := exists_finished i s words (c := inStep ((u.stackError bad).failing failed n) inhibit) hpc rfl
  refine ⟨p, d, hp, ?_⟩
  rw [hend, inStep_st, stackError_failing u bad n hfailed, State.finished, State.finished, ← Nat.add_assoc]

/-! ### PUSH and POP -/

/-- PUSH on an odd stack pointer (R246): the word is read, and not stored. -/
theorem exec_push_odd {s : State} {f : BitVec 15} {v : Word} {e : Nat} (hodd : (s.getW 15).getLsbD 0 = true)
    (hread : s.readableAs (f ++ 0#1) v e) (h : s.conflicts .addrErr = false) : ∃ p d, s.pcPast 1 p d ∧ exec (.push f) s = .next
      { (s.putW 15 (s.getW 15 + 2)).finished p (e + d) (cycles (.push f) s) with
        intcon1 := s.intcon1 ||| if s.pushFlags then 0x000C else 0x0008 } := by
  obtain ⟨p, d, hp, hend⟩ := exists_finished_failing (.push f) s 1 (u := { s.putW 15 (s.getW 15 + 2) with draws := s.draws + e })
    (bad := s.pushFlags) (n := 0) (inhibit := true) trivial rfl
  refine ⟨p, d, hp, ?_⟩
  have hpush := push16_odd (s := { s with draws := s.draws + e }) (i := false) v (bad := s.pushFlags) Iff.rfl hodd h
  show execPush f s = _
  rw [execPush, fileAddress, readWord_readable hread, bind_ok, start_eq_inStep, hpush, bind_ok, outcome_ok]
  refine (congrArg Host.Outcome.next hend).trans ?_
  rw [State.finished, State.finished, Nat.zero_add, ← Nat.add_assoc]
  rfl

theorem exec_push_odd_reset {s : State} {f : BitVec 15} {v : Word} {e : Nat} (hodd : (s.getW 15).getLsbD 0 = true)
    (hread : s.readableAs (f ++ 0#1) v e) (h : s.conflicts .addrErr = true) :
    exec (.push f) s = .next (deviceReset .trapConflict { s with draws := s.draws + e }) := by
  have hpush := push16_odd_reset (s := { s with draws := s.draws + e }) (i := false) v hodd h
  show execPush f s = _
  rw [execPush, fileAddress, readWord_readable hread, bind_ok, start_eq_inStep, hpush]
  rfl

section
variable {s : State} (f : BitVec 15) (hdata : (s.getW 15 - 2).getLsbD 0 = true ∨ 0x0800 ≤ (s.getW 15 - 2).toNat)
  (hfailed : s.unreadable (s.getW 15 - 2))
include hdata hfailed

/-- POP whose read raises the address error writes nothing (R221, R223). -/
theorem exec_pop_failed {bad : Prop} [Decidable bad] (hbad : s.popFlags ↔ bad) (h : s.conflicts .addrErr = false) :
    ∃ p d, s.pcPast 1 p d ∧ exec (.pop f) s = .next { (popped s).finished p (d + 1) (cycles (.pop f) s) with
      intcon1 := s.intcon1 ||| if bad then 0x000C else 0x0008 } := by
  obtain ⟨p, d, hp, hend⟩ := exists_finished_failing (.pop f) s 1 (u := popped s) (bad := bad) (n := 1) (inhibit := true)
    trivial rfl
  refine ⟨p, d, hp, ?_⟩
  have hpop := pop16_data (i := false) (failed := True) hbad hdata (iff_true_intro hfailed) fun _ => h
  have hwrite (v : Word) : writeWord (fileAddress f) v false (inStep (s.popTried bad True) true) =
      .ok () (inStep ((s.popTried bad True).stackError False) true) :=
    writeWord_inhibited (iff_false_intro fun hvia => Bool.false_ne_true hvia.1) v (getLsbD_append_zero f)
  show execPop f s = _
  rw [execPop, start_eq_inStep, hpop, bind_ok, decide_true, Bool.or_true, hwrite, bind_ok, outcome_ok, Nat.add_comm d 1]
  exact congrArg Host.Outcome.next hend

theorem exec_pop_reset (h : s.conflicts .addrErr = true) : exec (.pop f) s = .next (deviceReset .trapConflict s) := by
  show execPop f s = _
  rw [execPop, start_eq_inStep, pop16_reset hdata hfailed h]
  rfl

end

/-! ### RETURN and RETFIE -/

section
variable {s : State} (hdata1 : (s.getW 15 - 2).getLsbD 0 = true ∨ 0x0800 ≤ (s.getW 15 - 2).toNat)
  (hdata2 : (s.getW 15 - 4).getLsbD 0 = true ∨ 0x0800 ≤ (s.getW 15 - 4).toNat)
include hdata1 hdata2

/-- A return of which a pop raises the address error restores what the pops give (R221, log 33). -/
theorem exec_returns_failed {failed1 failed2 bad : Prop} [Decidable failed1] [Decidable failed2] [Decidable bad]
    (hbad : s.popFlags ∨ (popped s).popFlags ↔ bad) (hfailed1 : s.unreadable (s.getW 15 - 2) ↔ failed1)
    (hfailed2 : s.unreadable (s.getW 15 - 4) ↔ failed2) (hany : failed1 ∨ failed2) (h : s.conflicts .addrErr = false) :
    ∃ hi lo : Word, (¬ failed1 → hi = s.dataWord (s.getW 15 - 2)) ∧ (¬ failed2 → lo = s.dataWord (s.getW 15 - 4)) ∧
      let free := (if failed1 then 1 else 0) + if failed2 then 1 else 0
      let flagged := s.intcon1 ||| if bad then 0x000C else 0x0008
      exec .returnSub s = .next { (s.putW 15 (s.getW 15 - 4)).finished (frameAddress hi lo) free (cycles .returnSub s) with
          intcon1 := flagged } ∧
        exec .retfie s = .next { (s.putW 15 (s.getW 15 - 4)).finished (frameAddress hi lo) free 3 with
          intcon1 := flagged, sr := withSrl s.sr (hi.extractLsb' 8 8), corcon := setBit s.corcon 3 (hi.getLsbD 7) } := by
  obtain ⟨hi, lo, i, hhi, hlo, hpops⟩ := popFrame_data hbad hdata1 hdata2 hfailed1 hfailed2 h
  rw [stackError_failing _ _ _ hany] at hpops
  refine ⟨hi, lo, hhi, hlo, ?_, ?_⟩
  · show execReturn s = _
    rw [execReturn, hpops, outcome_ok, retire_counts rfl, countDown_eq]
    rfl
  · show execRetfie s = _
    rw [execRetfie, hpops, outcome_ok, retire_counts rfl, countDown_eq]
    rfl

theorem exec_returns_reset (hfailed : s.unreadable (s.getW 15 - 2) ∨ s.unreadable (s.getW 15 - 4)) (h : s.conflicts .addrErr = true) :
    exec .returnSub s = .next (deviceReset .trapConflict s) ∧ exec .retfie s = .next (deviceReset .trapConflict s) := by
  have hpops := popFrame_reset hdata1 hdata2 hfailed h
  constructor
  · show execReturn s = _
    rw [execReturn, hpops, outcome_reset]
  · show execRetfie s = _
    rw [execRetfie, hpops, outcome_reset]

end

/-! ### On an odd stack pointer -/

theorem getLsbD_sub_two (v : Word) : (v - 2).getLsbD 0 = v.getLsbD 0 := by
  cases h : v.getLsbD 0 with
  | false => exact even_sub_two h
  | true =>
    have hsum : v - 2 + 2 = v := by bv_omega
    exact odd_of_odd_add_two (by rwa [hsum])

theorem getLsbD_sub_four (v : Word) : (v - 4).getLsbD 0 = v.getLsbD 0 := by
  rw [← sub_two_sub_two, getLsbD_sub_two, getLsbD_sub_two]

theorem or_or_absorb {a b c d p q : Prop} (h : d → b) : ((a ∨ b) ∨ p) ∨ (d ∨ c) ∨ q ↔ a ∨ b ∨ c ∨ p ∨ q := by tauto

/-- The checks of two pops are those of the two addresses; the second sum leaves data space below 0x0800. -/
theorem two_popFlags (s : State) : s.popFlags ∨ (popped s).popFlags ↔ (s.getW 15).toNat < 2 ∨ (s.getW 15 - 2).toNat < 0x0800 ∨
    (s.getW 15 - 4).toNat < 0x0800 ∨ s.pastLimit 15 (s.getW 15 - 2) ∨ s.pastLimit 15 (s.getW 15 - 4) := by
  have hsecond : (popped s).popFlags ↔ ((s.getW 15 - 2).toNat < 2 ∨ (s.getW 15 - 4).toNat < 0x0800) ∨
      s.pastLimit 15 (s.getW 15 - 4) := by
    rw [State.popFlags, popped_getW_sub, getW_putW_same]
    rfl
  have hsmall : (s.getW 15 - 2).toNat < 2 → (s.getW 15 - 2).toNat < 0x0800 := fun h => h.trans (by decide)
  exact (or_congr_right hsecond).trans (or_or_absorb hsmall)

/-- An odd word below 2 is 1. -/
theorem odd_lt_two_iff {v : Word} (hodd : v.getLsbD 0 = true) : v.toNat < 2 ↔ v = 1 := by
  have hbit : v.toNat.testBit 0 = true := hodd
  simp at hbit
  rw [← BitVec.toNat_inj]
  show _ ↔ v.toNat = 1
  omega

/-- Settles O25: every access of these instructions is odd. -/
theorem oddStackPointerRaisesAddressError : Obligations.OddStackPointerRaisesAddressError := by
  intro s hodd up first second flagged
  have hodd1 : (s.getW 15 - 2).getLsbD 0 = true := (getLsbD_sub_two _).trans hodd
  have hodd2 : (s.getW 15 - 4).getLsbD 0 = true := (getLsbD_sub_four _).trans hodd
  have hone := odd_lt_two_iff hodd
  refine ⟨fun f v e hread => ⟨exec_push_odd hodd hread, exec_push_odd_reset hodd hread⟩, fun h => ⟨fun f => ?_, ?_⟩, fun h =>
    ⟨fun f => exec_pop_reset f (.inl hodd1) (.inl hodd1) h, exec_returns_reset (.inl hodd1) (.inl hodd2) (.inl (.inl hodd1)) h⟩⟩
  · exact exec_pop_failed f (.inl hodd1) (.inl hodd1) (or_assoc.trans (or_congr_left hone)) h
  · intro bad
    obtain ⟨hi, lo, -, -, hreturn, hretfie⟩ := exec_returns_failed (.inl hodd1) (.inl hodd2) (failed1 := True) (failed2 := True)
      ((two_popFlags s).trans (or_congr_left hone)) (iff_true_intro (.inl hodd1)) (iff_true_intro (.inl hodd2)) (.inl trivial) h
    refine ⟨⟨frameAddress hi lo, getLsbD_append_zero _, hreturn⟩, frameAddress hi lo, _, _, getLsbD_append_zero _, fun b hb => ?_,
      fun b hb => ?_, hretfie⟩
    · rw [withSrl, BitVec.getLsbD_append, if_neg hb.not_gt, BitVec.getLsbD_extractLsb', Nat.add_sub_cancel' hb]
      by_cases hlt : b - 8 < 8
      · simp [hlt]
      · simp [hlt, BitVec.getLsbD_of_ge s.sr b (by omega)]
    · rw [getLsbD_setBit, if_neg fun h3 => hb h3.1.symm]

end Sys2Proof.Machine
end

section
/-! PROOFS. Taking an exception: the priority, the vector and the frame, with room on the stack and on an odd stack pointer. -/

namespace Sys2Proof.Machine

/-! ### The priority an entry sets -/

theorem withIpl_ipl (sr : Word) (l : BitVec 3) : (withIpl sr l).extractLsb' 5 3 = l := by
  rw [withIpl, BitVec.extractLsb'_append_eq_of_le (by decide), BitVec.extractLsb'_append_eq_of_add_le (by decide)]
  exact BitVec.extractLsb'_eq_self

theorem getLsbD_withIpl (sr : Word) (l : BitVec 3) {b : Nat} (hb : b < 16) (hipl : ¬ (5 ≤ b ∧ b ≤ 7)) :
    (withIpl sr l).getLsbD b = sr.getLsbD b := by
  rw [withIpl, BitVec.getLsbD_append]
  split
  · simp [‹b < 5›]
  · rw [BitVec.getLsbD_append, if_neg (by omega), BitVec.getLsbD_extractLsb', show 8 + (b - 5 - 3) = b by omega]
    simp [show b - 5 - 3 < 8 by omega]

/-- A trap's entry takes the CPU to the trap's level (R239). -/
theorem enterPriority_trap_cpuIpl (τ : Trap) (s : State) : (enterPriority (.trap τ) τ.level s).cpuIpl = τ.level := by
  have hipl3 : (enterPriority (.trap τ) τ.level s).ipl3 = true := by
    show (setBit s.corcon 3 true).getLsbD 3 = true
    rw [getLsbD_setBit, if_pos ⟨rfl, by decide⟩]
  have hipl : (enterPriority (.trap τ) τ.level s).ipl = BitVec.ofNat 3 τ.level := withIpl_ipl s.sr _
  rw [cpuIpl_eq, hipl3, hipl]
  cases τ <;> rfl

/-- An interrupt's entry takes IPL<2:0> to its level, or to 7 under NSTDIS (R240). -/
theorem enterPriority_irq_ipl (i : Nat) {level : Nat} (hlevel : level < 8) (s : State) :
    (enterPriority (.irq i) level s).ipl.toNat = if s.nstdis then 7 else level := by
  have hipl : (enterPriority (.irq i) level s).ipl = if s.nstdis then 7 else BitVec.ofNat 3 level := withIpl_ipl s.sr _
  rw [hipl]
  split
  · rfl
  · exact Nat.mod_eq_of_lt hlevel

theorem getLsbD_enterPriority_sr (cand : Candidate) (level : Nat) (s : State) {b : Nat} (hb : b < 16) (hipl : ¬ (5 ≤ b ∧ b ≤ 7)) :
    (enterPriority cand level s).sr.getLsbD b = s.sr.getLsbD b := by
  cases cand <;> exact getLsbD_withIpl s.sr _ hb hipl

/-! ### What an entry leaves -/

/-- What entry of `cand` makes of the state `u` its pushes leave: the priority, the vector, four cycles (R237). -/
def enteredFrom (cand : Candidate) (s u : State) : State :=
  { loadVector cand (enterPriority cand (s.candidateLevel cand) u) with acceptAge := 0, disicnt := countDown 4 u.disicnt }

/-- What the pushes of an entry from `s` leave, wherever W15 points: the temporary buffer, W15 four higher, data memory, and flags of INTCON1,
NSTDIS being none of these (R237, R300). -/
def FramePushed (s u : State) : Prop :=
  ∃ data x, x.getLsbD 15 = s.intcon1.getLsbD 15 ∧
    u = { s.putW 15 (s.getW 15 + 4) with data := data, intcon1 := x, bufferPc := s.pc, bufferSrl := s.srl }

theorem entered_enteredFrom (cand : Candidate) {s u : State} (h : FramePushed s u) : s.entered cand (enteredFrom cand s u) := by
  obtain ⟨data, x, hnstdis, hu⟩ := h
  have hsr : u.sr = s.sr := by rw [hu]; rfl
  have hcorcon : u.corcon = s.corcon := by rw [hu]; rfl
  have hw : (enteredFrom cand s u).w = (s.putW 15 (s.getW 15 + 4)).w := by cases cand <;> rw [hu] <;> rfl
  have hnstdis : u.nstdis = s.nstdis := by rw [hu]; exact hnstdis
  refine ⟨?_, fun b hb hipl => ?_, ?_, ?_, fun r hr => ?_, ?_, ?_⟩
  · cases cand with
    | trap τ =>
      exact ⟨enterPriority_trap_cpuIpl τ u, fun b hb => (enterPriority_corcon (.trap τ) τ.level u hb).trans (by rw [hcorcon])⟩
    | irq i => exact ⟨(enterPriority_irq_ipl i (irqLevel_lt s i) u).trans (by rw [hnstdis]), hcorcon⟩
  · exact (getLsbD_enterPriority_sr cand (s.candidateLevel cand) u hb hipl).trans (by rw [hsr])
  · cases cand <;> rw [hu] <;> rfl
  · rw [State.getW, hw]
    exact getW_putW_same s 15 _
  · rw [State.getW, hw]
    exact getW_putW_other s _ hr
  · rw [hu]
    exact countDown_toNat 4 s.disicnt
  · cases cand <;> rw [hu] <;> rfl

theorem enteredFrom_data (cand : Candidate) (s u : State) : (enteredFrom cand s u).data = u.data := by cases cand <;> rfl

theorem enteredFrom_intcon1 (cand : Candidate) (s u : State) : (enteredFrom cand s u).intcon1 = u.intcon1 := by cases cand <;> rfl

/-- An entry is its two pushes, and then the priority and the vector. -/
theorem takeException_of_pushes (cand : Candidate) {s u1 u2 : State} {i1 i2 : Bool}
    (h1 : push16 (s.pc.extractLsb' 0 16) (start { s with bufferPc := s.pc, bufferSrl := s.srl }) = .ok () (inStep u1 i1))
    (h2 : push16 (frameHigh u1.srl u1.ipl3 s.pc) (inStep u1 i1) = .ok () (inStep u2 i2)) :
    takeException cand s = .next (enteredFrom cand s u2) := by
  rw [takeException, h1, bind_ok]
  dsimp only [inStep_st]
  rw [h2]
  rfl

/-! ### With room on the stack -/

theorem framePushed_frameStored (s : State) : FramePushed s (frameStored { s with bufferPc := s.pc, bufferSrl := s.srl }) := by
  refine ⟨(frameStored { s with bufferPc := s.pc, bufferSrl := s.srl }).data, s.intcon1, rfl, ?_⟩
  calc frameStored { s with bufferPc := s.pc, bufferSrl := s.srl }
      = { (s.putW 15 (s.getW 15 + 2)).putW 15 (s.getW 15 + 2 + 2) with
          data := (frameStored { s with bufferPc := s.pc, bufferSrl := s.srl }).data, bufferPc := s.pc, bufferSrl := s.srl } := rfl
    _ = _ := by rw [putW_putW_same, add_two_add_two]; rfl

theorem entered_entryState (cand : Candidate) (s : State) : s.entered cand (entryState cand s) :=
  entered_enteredFrom cand (framePushed_frameStored s)

theorem entryState_intcon1 (cand : Candidate) (s : State) : (entryState cand s).intcon1 = s.intcon1 := by cases cand <;> rfl

/-- The frame is four bytes (R238). -/
theorem entryState_dataByte_other (cand : Candidate) {s : State} (h : s.stackRoom 2) {a : Nat}
    (ha : a < (s.getW 15).toNat ∨ (s.getW 15).toNat + 4 ≤ a) : (entryState cand s).dataByte a = s.dataByte a := by
  obtain ⟨-, -, hhi, -, -⟩ := h
  have hup : (s.getW 15 + 2).toNat = (s.getW 15).toNat + 2 := toNat_add_two (by omega)
  have hframe : (entryState cand s).dataByte a = ((s.storeWord (s.getW 15) (s.pc.extractLsb' 0 16)).storeWord (s.getW 15 + 2)
      (frameHigh s.srl s.ipl3 s.pc)).dataByte a := by cases cand <;> rfl
  rw [hframe, storeWord_dataByte_other _ _ _ (by omega) (by omega), storeWord_dataByte_other _ _ _ (by omega) (by omega)]

/-- Settles O19. -/
theorem trapEntrySavesFrameAndSetsLevel : Obligations.TrapEntrySavesFrameAndSetsLevel := by
  intro s τ hroom
  obtain ⟨⟨hlevel, hcorcon⟩, hsr, hpc, htop, hregs, hdisi, hrest⟩ := entered_entryState (.trap τ) s
  rw [entryState_intcon1] at hrest
  exact ⟨_, takeException_entryState _ hroom, entryState_dataWord_low _ hroom, entryState_dataWord_high _ s,
    fun a ha => entryState_dataByte_other _ hroom ha, htop, hregs, hlevel, hpc, hsr, hcorcon, hdisi, hrest⟩

/-- Settles O20. -/
theorem interruptEntrySavesFrameAndSetsLevel : Obligations.InterruptEntrySavesFrameAndSetsLevel := by
  intro s i hroom
  obtain ⟨⟨hlevel, hcorcon⟩, hsr, hpc, htop, hregs, hdisi, hrest⟩ := entered_entryState (.irq i) s
  rw [entryState_intcon1, hcorcon] at hrest
  exact ⟨_, takeException_entryState _ hroom, entryState_dataWord_low _ hroom, entryState_dataWord_high _ s,
    fun a ha => entryState_dataByte_other _ hroom ha, htop, hregs, hlevel, hpc, hsr, hdisi, hrest⟩

/-- Settles O22: IPL<2:0> after the entry is the entered source's level, or 7, and what wins is above it. -/
theorem sameLevelWaitsForTheHandler : Obligations.SameLevelWaitsForTheHandler := by
  intro s t i j hroom htake hwin
  obtain rfl := Host.Outcome.next.inj ((takeException_entryState (.irq i) hroom).symm.trans htake)
  obtain ⟨⟨hlevel, -⟩, -⟩ := entered_entryState (.irq i) s
  obtain ⟨-, -, -, habove, -⟩ := (eligible_iff _ j).1 (eligible_of_winner hwin)
  have hcpu := cpuIpl_eq (entryState (.irq i) s)
  have hj : (entryState (.irq i) s).irqLevel j = s.irqLevel j := rfl
  have hlt := irqLevel_lt s j
  cases hnstdis : s.nstdis with
  | true =>
    rw [if_pos hnstdis] at hlevel
    omega
  | false =>
    rw [hnstdis, if_neg Bool.false_ne_true] at hlevel
    exact ⟨by omega, rfl⟩

/-- Settles O23: a trap's level is above every interrupt's. -/
theorem onlyHigherTrapsNestInTraps : Obligations.OnlyHigherTrapsNestInTraps := by
  intro s t τ cand hroom htake hcand
  obtain rfl := Host.Outcome.next.inj ((takeException_entryState (.trap τ) hroom).symm.trans htake)
  obtain ⟨⟨hlevel, -⟩, -⟩ := entered_entryState (.trap τ) s
  rcases candidate_cases hcand with ⟨τ', rfl, hpending⟩ | ⟨i, rfl, hwin⟩
  · obtain ⟨-, habove, -⟩ := (pendingTrap_eq_some_iff _ τ').1 hpending
    exact ⟨τ', rfl, hlevel ▸ habove⟩
  · have hseven : 7 ≤ (entryState (.trap τ) s).cpuIpl := by
      rw [hlevel]
      cases τ <;> decide
    exact nomatch (winner_eq_none_of_cpuIpl hseven).symm.trans hwin

/-! ### On an odd stack pointer -/

/-- W15 two higher: what a push leaves of the working registers. -/
abbrev pushed (s : State) : State := s.putW 15 (s.getW 15 + 2)

theorem pushed_getW_add (s : State) : (pushed s).getW 15 + 2 = s.getW 15 + 4 := by rw [getW_putW_same, add_two_add_two]

theorem pushed_pushed (s : State) : pushed (pushed s) = s.putW 15 (s.getW 15 + 4) := by
  rw [pushed, pushed_getW_add, putW_putW_same]

theorem pushed_pushFlags (s : State) : (pushed s).pushFlags ↔
    (s.getW 15 + 4).toNat < 0x0800 ∨ s.pastLimit 15 (s.getW 15 + 2) := by
  rw [State.pushFlags, pushed_getW_add, getW_putW_same]
  rfl

/-- The two pushes of an entry on an odd stack pointer store nothing (R246). -/
theorem takeException_odd (cand : Candidate) {s : State} (hodd : (s.getW 15).getLsbD 0 = true) (h : s.conflicts .addrErr = false)
    {bad : Prop} [Decidable bad] (hbad : s.pushFlags ∨ (pushed s).pushFlags ↔ bad) :
    takeException cand s = .next (enteredFrom cand s { s.putW 15 (s.getW 15 + 4) with
      intcon1 := s.intcon1 ||| if bad then 0x000C else 0x0008, bufferPc := s.pc, bufferSrl := s.srl }) := by
  have hodd2 : ((pushed s).getW 15).getLsbD 0 = true := by
    rw [getW_putW_same, ← getLsbD_sub_two, show s.getW 15 + 2 - 2 = s.getW 15 by bv_omega]
    exact hodd
  have h1 := push16_odd (s := { s with bufferPc := s.pc, bufferSrl := s.srl }) (i := false) (s.pc.extractLsb' 0 16)
    (bad := s.pushFlags) Iff.rfl hodd h
  have h2 := push16_odd (i := true) (bad := (pushed s).pushFlags) (frameHigh s.srl s.ipl3 s.pc)
    (s := ((pushed { s with bufferPc := s.pc, bufferSrl := s.srl }).stackError s.pushFlags).failing True 0) Iff.rfl hodd2
    (((conflicts_failing _ _ _).trans (conflicts_stackError _ _)).trans h)
  rw [takeException_of_pushes cand h1 h2, failing_putW, stackError_putW, failing_stackError, stackError_stackError,
    failing_failing, stackError_congr _ hbad, stackError_failing _ _ _ (.inl trivial)]
  refine congrArg (fun u => Host.Outcome.next (enteredFrom cand s u)) ?_
  calc _ = { pushed (pushed s) with
          intcon1 := s.intcon1 ||| if bad then 0x000C else 0x0008, bufferPc := s.pc, bufferSrl := s.srl } := rfl
    _ = _ := by rw [pushed_pushed]

theorem takeException_odd_reset (cand : Candidate) {s : State} (hodd : (s.getW 15).getLsbD 0 = true)
    (h : s.conflicts .addrErr = true) : takeException cand s = .next (deviceReset .trapConflict s) := by
  have hpush := push16_odd_reset (s := { s with bufferPc := s.pc, bufferSrl := s.srl }) (i := false) (s.pc.extractLsb' 0 16) hodd h
  rw [takeException, start_eq_inStep, hpush]
  rfl

/-- The checks of two pushes: those of the new pointers and those of the limit. -/
theorem two_pushFlags (s : State) : s.pushFlags ∨ (pushed s).pushFlags ↔ (s.getW 15 + 2).toNat < 0x0800 ∨
    (s.getW 15 + 4).toNat < 0x0800 ∨ s.pastLimit 15 (s.getW 15) ∨ s.pastLimit 15 (s.getW 15 + 2) :=
  (or_congr_right (pushed_pushFlags s)).trans (or_or_or_comm.trans or_assoc)

/-- Settles O24. -/
theorem entryOnOddStackRaisesAddressError : Obligations.EntryOnOddStackRaisesAddressError := by
  intro s cand hodd bad
  refine ⟨fun h => ⟨_, takeException_odd cand hodd h (two_pushFlags s), entered_enteredFrom cand ?_, enteredFrom_data .., ?_⟩,
    fun h => ⟨takeException_odd_reset cand hodd h, deviceReset_trapConflict_trapr s⟩⟩
  · refine ⟨s.data, _, ?_, rfl⟩
    split <;> simp
  · exact enteredFrom_intcon1 ..

/-! ### On an even stack pointer in data memory -/

/-- A store reads of the state nothing but data memory and what of it is implemented. -/
theorem stored_eq {s t : State} (hdata : t.data = s.data) (hdevice : t.device = s.device) (a v : Word) :
    t.stored a v = { t with data := (s.stored a v).data } := by
  have hstored : (t.stored a v).data = (s.stored a v).data := by
    simp only [State.stored, apply_ite State.data, storeWord_data, hdata, hdevice]
  rw [← hstored]
  exact stored_frame t a v

/-- What the first push of an entry leaves: the lower word of the frame stored where data memory is implemented. -/
def lowPushed (s : State) : State :=
  { (pushed s).stackError s.pushFlags with
    data := (s.stored (s.getW 15) (s.pc.extractLsb' 0 16)).data, bufferPc := s.pc, bufferSrl := s.srl }

theorem lowPushed_getW (s : State) : (lowPushed s).getW 15 = s.getW 15 + 2 := getW_putW_same s 15 _

section
variable {s : State} (heven : (s.getW 15).getLsbD 0 = false) (hlo : 0x0800 ≤ (s.getW 15).toNat)
include heven hlo

theorem push16_lowPushed : push16 (s.pc.extractLsb' 0 16) (start { s with bufferPc := s.pc, bufferSrl := s.srl }) =
    .ok () (start (lowPushed s)) := by
  rw [push16_stored (s := { s with bufferPc := s.pc, bufferSrl := s.srl }) _ (bad := s.pushFlags) Iff.rfl heven hlo,
    stored_eq (s := s) (t := { s with bufferPc := s.pc, bufferSrl := s.srl }) rfl rfl]
  rfl

/-- The second push, and the two words of the frame. -/
theorem push16_highPushed (hhi : (s.getW 15).toNat + 2 < 0x10000) (v : Word) : push16 v (start (lowPushed s)) =
    .ok () (start { (s.putW 15 (s.getW 15 + 4)).stackError (s.pushFlags ∨ (pushed s).pushFlags) with
      data := ((s.stored (s.getW 15) (s.pc.extractLsb' 0 16)).stored (s.getW 15 + 2) v).data, bufferPc := s.pc, bufferSrl := s.srl }) := by
  have hup : (s.getW 15 + 2).toNat = (s.getW 15).toNat + 2 := toNat_add_two hhi
  have hstored := stored_eq (s := s.stored (s.getW 15) (s.pc.extractLsb' 0 16)) (t := lowPushed s) rfl (stored_device s _ _).symm
    (s.getW 15 + 2) v
  rw [push16_stored (s := lowPushed s) v (bad := (pushed s).pushFlags) Iff.rfl (by rw [lowPushed_getW]; exact even_add_two heven)
    (by rw [lowPushed_getW]; omega), lowPushed_getW, hstored, add_two_add_two]
  refine congrArg (fun t => Run.ok () (start t)) ?_
  calc _ = { (((pushed s).putW 15 (s.getW 15 + 4)).stackError s.pushFlags).stackError (pushed s).pushFlags with
          data := ((s.stored (s.getW 15) (s.pc.extractLsb' 0 16)).stored (s.getW 15 + 2) v).data
          bufferPc := s.pc
          bufferSrl := s.srl } := rfl
    _ = _ := by rw [stackError_stackError, putW_putW_same]

/-- An entry into data memory, whatever its checks find (R215, R216, D27). -/
theorem takeException_stored (cand : Candidate) (hhi : (s.getW 15).toNat + 2 < 0x10000) {bad : Prop} [Decidable bad]
    (hbad : s.pushFlags ∨ (pushed s).pushFlags ↔ bad) :
    takeException cand s = .next (enteredFrom cand s { (s.putW 15 (s.getW 15 + 4)).stackError bad with
      data := ((s.stored (s.getW 15) (s.pc.extractLsb' 0 16)).stored (s.getW 15 + 2) (frameHigh s.srl s.ipl3 s.pc)).data
      bufferPc := s.pc
      bufferSrl := s.srl }) := by
  rw [← stackError_congr _ hbad]
  exact takeException_of_pushes cand (push16_lowPushed heven hlo) (push16_highPushed heven hlo hhi _)

end

end Sys2Proof.Machine
end

section
/-! PROOFS. The stack checks that raise the stack error: the pushes, pops and entries that fail one make their accesses all the same. -/

namespace Sys2Proof.Machine

/-! ### The checks of one access -/

theorem even_toNat {v : Word} (heven : v.getLsbD 0 = false) : v.toNat % 2 = 0 := by
  have hbit : v.toNat.testBit 0 = false := heven
  simpa using hbit

/-- A push on an even stack pointer in data memory fails a check past the limit and where W15 wraps to 0 (R214 to R216). -/
theorem pushFlags_iff {s : State} (heven : (s.getW 15).getLsbD 0 = false) (hlo : 0x0800 ≤ (s.getW 15).toNat) :
    s.pushFlags ↔ s.getW 15 = 0xFFFE ∨ s.pastLimit 15 (s.getW 15) := by
  have hbit := even_toNat heven
  exact or_congr_left (by bv_omega)

/-- A pop from an even stack pointer wraps at 0 alone (R216). -/
theorem popFlags_iff {s : State} (heven : (s.getW 15).getLsbD 0 = false) :
    s.popFlags ↔ s.getW 15 = 0 ∨ (s.getW 15 - 2).toNat < 0x0800 ∨ s.pastLimit 15 (s.getW 15 - 2) := by
  have hbit := even_toNat heven
  have hzero : (s.getW 15).toNat < 2 ↔ s.getW 15 = 0 := by bv_omega
  exact or_assoc.trans (or_congr_left hzero)

/-! ### PUSH and POP -/

/-- PUSH of a word that can be read, on an even stack pointer in data memory. -/
theorem exec_push_stored {s : State} {f : BitVec 15} {v : Word} {e : Nat} (hread : s.readableAs (f ++ 0#1) v e)
    (heven : (s.getW 15).getLsbD 0 = false) (hlo : 0x0800 ≤ (s.getW 15).toNat) {bad : Prop} [Decidable bad]
    (hbad : s.pushFlags ↔ bad) : ∃ p d t, s.pcPast 1 p d ∧ exec (.push f) s = .next t ∧
      t = { ((pushed s).stackError bad).finished p (e + d) (cycles (.push f) s) with data := t.data } ∧
      t.data = (s.stored (s.getW 15) v).data ∧ t.epoch = s.epoch := by
  have hstored := stored_eq (s := s) (t := { s with draws := s.draws + e }) rfl rfl (s.getW 15) v
  have hpush := push16_stored (s := { s with draws := s.draws + e }) v hbad heven hlo
  obtain ⟨p, d, hp, hend⟩ := exists_finished (.push f) s 1 (c := start
    { (pushed s).stackError bad with data := (s.stored (s.getW 15) v).data, draws := s.draws + e }) rfl rfl
  refine ⟨p, d, { ((pushed s).stackError bad).finished p (e + d) (cycles (.push f) s) with data := (s.stored (s.getW 15) v).data },
    hp, ?_, rfl, rfl, rfl⟩
  show execPush f s = _
  rw [execPush, fileAddress, readWord_readable hread, bind_ok, hpush]
  dsimp only [bind_ok, outcome_ok]
  have hstate : ((({ s with draws := s.draws + e } : State).stored (s.getW 15) v).putW 15 (s.getW 15 + 2)).stackError bad =
      { (pushed s).stackError bad with data := (s.stored (s.getW 15) v).data, draws := s.draws + e } := by rw [hstored]; rfl
  refine (congrArg (fun t => Host.Outcome.next (retire (.push f) s (advance 1 (start t))).st) hstate).trans ?_
  rw [hend, State.finished, State.finished, ← Nat.add_assoc]
  rfl

/-- POP, to data memory, of a word that can be read once the checks of the pop are made. -/
theorem exec_pop_checked {s : State} {f : BitVec 15} {v : Word} {e : Nat} {bad : Prop} [Decidable bad] (hbad : s.popFlags ↔ bad)
    (hread : ((popped s).stackError bad).readableAs (s.getW 15 - 2) v e) (hlo : 0x0800 ≤ (f ++ 0#1).toNat)
    (himp : Device.dataImplemented s.device (f ++ 0#1).toNat = true) : ∃ p d, s.pcPast 1 p d ∧ exec (.pop f) s = .next
      { ((popped s).stackError bad).finished p (e + d) (cycles (.pop f) s) with data := (s.storeWord (f ++ 0#1) v).data } := by
  have hwrite := writeWord_ram (c := start { (popped s).stackError bad with draws := s.draws + e }) (b := false) (v := v)
    (getLsbD_append_zero f) hlo himp nofun rfl
  obtain ⟨p, d, hp, hend⟩ := exists_finished (.pop f) s 1 (c := start
    { (popped s).stackError bad with data := (s.storeWord (f ++ 0#1) v).data, draws := s.draws + e }) rfl rfl
  refine ⟨p, d, hp, ?_⟩
  show execPop f s = _
  rw [execPop, pop16_checked hbad hread, bind_ok, fileAddress, hwrite, bind_ok, outcome_ok]
  refine (congrArg Host.Outcome.next hend).trans ?_
  rw [State.finished, State.finished, ← Nat.add_assoc]
  rfl

/-! ### Returns -/

/-- A pop below 0x0800 that meets no register is refused, whatever its checks find (U10, log 21). -/
theorem pop16_unlisted {c : Cpu} (heven : (c.st.getW 15).getLsbD 0 = false) (hlo : (c.st.getW 15 - 2).toNat < 0x0800)
    (hreg : regAt c.st.device (c.st.getW 15 - 2).toNat = none) : pop16 c = .stop .unlistedRegister := by
  rw [pop16_eq]
  exact readWord_unlisted (even_sub_two heven) hlo hreg

/-- What two pops leave, each of a word that can be read once its checks are made. -/
theorem popFrame_checked {s u1 u2 : State} {hi lo : Word} {e1 e2 : Nat} {bad1 bad2 : Prop} [Decidable bad1] [Decidable bad2]
    (hbad1 : s.popFlags ↔ bad1) (hu1 : u1 = { (popped s).stackError bad1 with draws := s.draws + e1 })
    (hhi : ((popped s).stackError bad1).readableAs (s.getW 15 - 2) hi e1) (hbad2 : u1.popFlags ↔ bad2)
    (hu2 : u2 = (popped u1).stackError bad2) (hlo : u2.readableAs (u1.getW 15 - 2) lo e2) (f : (hi lo : Word) → Cpu → Cpu) :
    popFrame (start s) f = .ok () (f hi lo (start { u2 with draws := u1.draws + e2 })) := by
  subst hu2
  rw [popFrame, pop16_checked hbad1 hhi, ← hu1, bind_ok, pop16_checked hbad2 hlo, bind_ok]

/-- Two pops of words that can be read, each with its checks, and what RETURN and RETFIE make of them (R152, R174). -/
theorem exec_returns_checked {s u1 u2 : State} {hi lo : Word} {e1 e2 : Nat} {bad1 bad2 : Prop} [Decidable bad1] [Decidable bad2]
    (hbad1 : s.popFlags ↔ bad1) (hu1 : u1 = { (popped s).stackError bad1 with draws := s.draws + e1 })
    (hhi : ((popped s).stackError bad1).readableAs (s.getW 15 - 2) hi e1) (hbad2 : u1.popFlags ↔ bad2)
    (hu2 : u2 = (popped u1).stackError bad2) (hlo : u2.readableAs (u1.getW 15 - 2) lo e2) :
    exec .returnSub s = .next (u2.finished (frameAddress hi lo) e2 (cycles .returnSub s)) ∧
      exec .retfie s = .next { u2.finished (frameAddress hi lo) e2 3 with
        sr := withSrl s.sr (hi.extractLsb' 8 8), corcon := setBit s.corcon 3 (hi.getLsbD 7) } := by
  have hpops := popFrame_checked hbad1 hu1 hhi hbad2 hu2 hlo
  subst hu2 hu1
  constructor
  · show execReturn s = _
    rw [execReturn, hpops, outcome_ok, retire_counts rfl, countDown_eq]
    rfl
  · show execRetfie s = _
    rw [execRetfie, hpops, outcome_ok, retire_counts rfl, countDown_eq]
    rfl

/-- A return whose second pop meets no register below 0x0800 is refused (U10, log 21). -/
theorem exec_returns_unlisted {s u1 : State} {hi : Word} {e1 : Nat} {bad1 : Prop} [Decidable bad1] (hbad1 : s.popFlags ↔ bad1)
    (hu1 : u1 = { (popped s).stackError bad1 with draws := s.draws + e1 })
    (hhi : ((popped s).stackError bad1).readableAs (s.getW 15 - 2) hi e1) (hlo : (s.getW 15 - 4).toNat < 0x0800)
    (hreg : regAt s.device (s.getW 15 - 4).toNat = none) :
    exec .returnSub s = .refused .unlistedRegister ∧ exec .retfie s = .refused .unlistedRegister := by
  have htop : u1.getW 15 = s.getW 15 - 2 := by rw [hu1]; exact getW_putW_same s 15 _
  have hdevice : u1.device = s.device := by rw [hu1]; rfl
  have hsecond : pop16 (start u1) = .stop .unlistedRegister := by
    refine pop16_unlisted (c := start u1) ?_ ?_ ?_
    · rw [start_st, htop]
      exact readableAs_even hhi
    · rw [start_st, htop, sub_two_sub_two]
      exact hlo
    · rw [start_st, htop, hdevice, sub_two_sub_two]
      exact hreg
  have hpops (f : (hi lo : Word) → Cpu → Cpu) : popFrame (start s) f = .stop .unlistedRegister := by
    rw [popFrame, pop16_checked hbad1 hhi, ← hu1, bind_ok, hsecond, bind_stop]
  constructor
  · show execReturn s = _
    rw [execReturn, hpops, outcome_stop]
  · show execRetfie s = _
    rw [execRetfie, hpops, outcome_stop]

/-! ### Data memory after a store -/

theorem dataByte_congr {s t : State} (hdata : t.data = s.data) (hepoch : t.epoch = s.epoch) (a : Nat) : t.dataByte a = s.dataByte a := by
  rw [State.dataByte, State.dataByte, hdata, hepoch]

theorem dataWord_congr {s t : State} (hdata : t.data = s.data) (hepoch : t.epoch = s.epoch) (a : Word) : t.dataWord a = s.dataWord a := by
  rw [State.dataWord, State.dataWord, dataByte_congr hdata hepoch, dataByte_congr hdata hepoch]

theorem stored_epoch (s : State) (a v : Word) : (s.stored a v).epoch = s.epoch := by rw [stored_frame]

/-! ### Entries -/

/-- The checks of an entry into data memory are those of its second push: W15 wraps to 0 with it, and the limit is passed by it. -/
theorem entryFlags_iff {s : State} (heven : (s.getW 15).getLsbD 0 = false) (hlo : 0x0800 ≤ (s.getW 15).toNat)
    (hhi : (s.getW 15).toNat + 2 < 0x10000) : s.pushFlags ∨ (pushed s).pushFlags ↔
      s.getW 15 = 0xFFFC ∨ s.pastLimit 15 (s.getW 15 + 2) := by
  have hup : (s.getW 15 + 2).toNat = (s.getW 15).toNat + 2 := toNat_add_two hhi
  have heven2 : ((pushed s).getW 15).getLsbD 0 = false := by rw [getW_putW_same]; exact even_add_two heven
  have hlo2 : 0x0800 ≤ ((pushed s).getW 15).toNat := by rw [getW_putW_same]; omega
  have hwrap : s.getW 15 ≠ 0xFFFE := fun h => absurd (h ▸ hhi) (by decide)
  have hwrap2 : s.getW 15 + 2 = 0xFFFE ↔ s.getW 15 = 0xFFFC := by bv_omega
  have hpast : s.pastLimit 15 (s.getW 15) → s.pastLimit 15 (s.getW 15 + 2) := fun ⟨h15, harmed, hlim⟩ => ⟨h15, harmed, by omega⟩
  rw [pushFlags_iff heven hlo, pushFlags_iff heven2 hlo2, getW_putW_same, hwrap2, or_iff_right hwrap]
  exact or_iff_right_of_imp fun h => .inr (hpast h)

/-- The frame in data memory after an entry whose words are stored where it is implemented (R238, D27). -/
theorem takeException_frame (cand : Candidate) {s : State} (heven : (s.getW 15).getLsbD 0 = false) (hlo : 0x0800 ≤ (s.getW 15).toNat)
    (hhi : (s.getW 15).toNat + 2 < 0x10000) : ∃ t, takeException cand s = .next t ∧ s.entered cand t ∧
      t.intcon1 = (s.stackError (s.getW 15 = 0xFFFC ∨ s.pastLimit 15 (s.getW 15 + 2))).intcon1 ∧
      t.data = ((s.stored (s.getW 15) (s.pc.extractLsb' 0 16)).stored (s.getW 15 + 2) (frameHigh s.srl s.ipl3 s.pc)).data ∧
      t.epoch = s.epoch := by
  refine ⟨_, takeException_stored heven hlo cand hhi (entryFlags_iff heven hlo hhi), entered_enteredFrom cand ⟨_, _, ?_, rfl⟩,
    enteredFrom_intcon1 .., enteredFrom_data .., ?_⟩
  · rw [stackError_intcon1]
    split <;> simp
  · cases cand <;> rfl

/-- Settles O40: an access whose stack check fails differs from one that passes by the flag alone. -/
theorem stackChecksFlagAndStillAccess : Obligations.StackChecksFlagAndStillAccess := by
  refine ⟨fun s f v e hread heven hlo => ?_, fun s f v e => ?_, fun s hi e1 => ?_, fun s heven hlo hreg => ?_,
    fun s cand heven hlo hhi => ?_⟩
  · intro u stored
    obtain ⟨p, d, t, hp, hexec, hframe, hdata, hepoch⟩ := exec_push_stored hread heven hlo (pushFlags_iff heven hlo)
    have hepoch : t.epoch = (s.stored (s.getW 15) v).epoch := by rw [stored_epoch, hepoch]
    refine ⟨p, d, t, hp, hexec, hframe, fun himp => ?_, fun a ha => ?_⟩
    · rw [dataWord_congr hdata hepoch, stored_dataWord_same v himp]
    · rw [dataByte_congr hdata hepoch, stored_dataByte_other v ha]
  · intro ea u hread hlo himp
    have heven : (s.getW 15).getLsbD 0 = false := (getLsbD_sub_two _).symm.trans (readableAs_even hread)
    obtain ⟨p, d, hp, hexec⟩ := exec_pop_checked (popFlags_iff heven) hread hlo himp
    exact ⟨p, d, _, hp, hexec, rfl, storeWord_dataWord_same s (f ++ 0#1) v,
      fun a ha => storeWord_dataByte_other s (f ++ 0#1) v (by omega) (by omega)⟩
  · intro first second u1 u2 hhi
    have heven1 : first.getLsbD 0 = false := readableAs_even hhi
    have heven : (s.getW 15).getLsbD 0 = false := (getLsbD_sub_two _).symm.trans heven1
    obtain ⟨top, htopdef⟩ : ∃ t : State, t = { u1 with draws := u1.draws + e1 } := ⟨_, rfl⟩
    have htop : top.getW 15 = first := by rw [htopdef]; exact getW_putW_same s 15 _
    refine ⟨fun lo e2 hlo => ?_, fun hlow hreg => exec_returns_unlisted (popFlags_iff heven) rfl hhi hlow hreg⟩
    have hnext : top.getW 15 - 2 = second := by rw [htop]; exact sub_two_sub_two _
    have hflags : top.popFlags ↔ first = 0 ∨ second.toNat < 0x0800 ∨ s.pastLimit 15 second := by
      rw [popFlags_iff (htop ▸ heven1), htop, ← hnext, htop, htopdef]
      rfl
    have hpopped : u2 = (popped top).stackError (first = 0 ∨ second.toNat < 0x0800 ∨ s.pastLimit 15 second) := by
      rw [popped, hnext, htopdef]
    intro target
    obtain ⟨hreturn, hretfie⟩ := exec_returns_checked (popFlags_iff heven) htopdef hhi hflags hpopped (hnext ▸ hlo)
    refine ⟨hreturn, _, hretfie, fun b => ?_⟩
    rw [getLsbD_setBit, if_congr (show 3 = b ∧ b < 16 ↔ b = 3 by omega) rfl rfl]
  · have hpop : pop16 (start s) = .stop .unlistedRegister := pop16_unlisted (c := start s) heven hlo hreg
    refine ⟨fun f => ?_, ?_, ?_⟩
    · show execPop f s = _
      rw [execPop, hpop]
      rfl
    · show execReturn s = _
      rw [execReturn, popFrame, hpop]
      rfl
    · show execRetfie s = _
      rw [execRetfie, popFrame, hpop]
      rfl
  · intro lower upper
    have hup : (s.getW 15 + 2).toNat = (s.getW 15).toNat + 2 := toNat_add_two hhi
    obtain ⟨t, htake, hentered, hflags, hdata, hepoch⟩ := takeException_frame cand heven hlo hhi
    have hepoch : t.epoch = ((s.stored (s.getW 15) (s.pc.extractLsb' 0 16)).stored (s.getW 15 + 2)
        (frameHigh s.srl s.ipl3 s.pc)).epoch := by rw [stored_epoch, stored_epoch, hepoch]
    have hupper : Device.dataImplemented (s.stored (s.getW 15) (s.pc.extractLsb' 0 16)).device (s.getW 15 + 2).toNat = true ↔ upper := by
      rw [stored_device, hup]
    refine ⟨t, htake, hentered, hflags, fun h => ?_, fun h => ?_, fun a ha1 ha2 => ?_⟩
    · rw [dataWord_congr hdata hepoch, stored_dataWord_other _ _ (.inl hup.ge), stored_dataWord_same _ h]
    · rw [dataWord_congr hdata hepoch, stored_dataWord_same _ (hupper.2 h)]
      rfl
    · rw [dataByte_congr hdata hepoch, stored_dataByte_other _ fun h => ?_, stored_dataByte_other _ ha1]
      rw [hup]
      exact ha2 (hupper.1 h)

end Sys2Proof.Machine
end

section
/-! PROOFS. Stores of instructions that raise the address error: MOV.D to an odd address, PUSH of an unimplemented one. -/

namespace Sys2Proof.Machine

/-! ### A failed read -/

/-- A read that raises the address error gives a free value (R221, log 1). -/
theorem readWord_failed {s : State} {viaW15 : Bool} {ea : Word} {past : Prop} [Decidable past]
    (hpast : viaW15 = true ∧ s.splimArmed = true ∧ s.splim.toNat < ea.toNat ↔ past) (hfailed : s.unreadable ea)
    (hdata : ea.getLsbD 0 = true ∨ 0x0800 ≤ ea.toNat) (h : s.conflicts .addrErr = false) : readWord ea viaW15 (start s) =
      .ok (Config.freeWord s.draws) (inStep ((s.stackError past).failing True 1) true) :=
  readWord_data (i := false) hpast (iff_true_intro hfailed) hdata fun _ => h

/-- An access that is not made through W15 meets no stack limit (R215). -/
theorem not_viaW15 {p : Prop} : false = true ∧ p ↔ False := iff_false_intro fun h => Bool.false_ne_true h.1

/-! ### Double words -/

/-- A pointer's modification raises no hard trap, so it changes no conflict (R214, R216, R228). -/
theorem pointer_conflicts (m : AddrMode) (r : WReg) (size : Int) (s : State) :
    (pointer m r size (start s)).2.st.conflicts .addrErr = s.conflicts .addrErr := by
  have hmoved (v : Word) (d : Int) : (writeW r v (pointerAdd r d (start s)).2).st.conflicts .addrErr = s.conflicts .addrErr := by
    rw [pointerAdd_start, writeW_stackError, start_st, conflicts_stackError]
    exact conflicts_stackError s _
  cases m with
  | direct | indirect | unused6 | unused7 => rfl
  | postDec | postInc | preDec | preInc => exact hmoved _ _

/-- The address of the upper word, whose sum wraps at 0xFFFE and 0xFFFF (R216). -/
theorem upperAddress_inStep (r : WReg) {ea : Word} (hend : ea ≠ 0xFFFE) (u : State) (i : Bool) :
    upperAddress (decide (r = 15)) ea (inStep u i) = (ea + 2, inStep (u.stackError (r = 15 ∧ ea = 0xFFFF)) i) := by
  have hcheck : (decide (r = 15) && decide (ea = 0xFFFE ∨ ea = 0xFFFF)) = true ↔ r = 15 ∧ ea = 0xFFFF := by
    rw [Bool.and_eq_true, decide_eq_true_eq, decide_eq_true_eq, or_iff_right hend]
  rw [upperAddress, ite_softTrap_stkErr]
  exact congrArg (fun t => (ea + 2, inStep t i)) (stackError_congr u hcheck)

theorem ne_of_odd {ea : Word} (hodd : ea.getLsbD 0 = true) : ea ≠ 0xFFFE := by
  rintro rfl
  exact absurd hodd (by decide)

theorem odd_add_two {ea : Word} (hodd : ea.getLsbD 0 = true) : (ea + 2).getLsbD 0 = true := by
  rwa [← getLsbD_sub_two, BitVec.add_sub_cancel]

/-- The flags of two accesses, the check of the upper address between them. -/
theorem two_accesses (u : State) (past1 wrap past2 failed1 failed2 : Prop) [Decidable past1] [Decidable wrap] [Decidable past2]
    [Decidable failed1] [Decidable failed2] (m n : Nat) :
    ((((u.stackError past1).failing failed1 m).stackError wrap).stackError past2).failing failed2 n =
      (u.stackError (wrap ∨ past1 ∨ past2)).failing (failed1 ∨ failed2) (m + n) := by
  rw [failing_stackError, failing_stackError, failing_failing, stackError_stackError, stackError_stackError,
    stackError_congr u or_left_comm]

section
variable {u : State} {r : WReg} {ea : Word} (lo hi : Word) (hodd : ea.getLsbD 0 = true)
include hodd

/-- Both words are tried at an odd address, and neither is stored (R221, log 11). -/
theorem writeDouble_odd (h : u.conflicts .addrErr = false) : writeDouble ea lo hi (decide (r = 15)) (start u) = .ok () (inStep
    ((u.stackError ((r = 15 ∧ ea = 0xFFFF) ∨ u.pastLimit r ea ∨ u.pastLimit r (ea + 2))).failing (True ∨ True) (0 + 0)) true) := by
  have hafter : (((u.stackError (u.pastLimit r ea)).failing True 0).stackError (r = 15 ∧ ea = 0xFFFF)).conflicts .addrErr = false := by
    rw [conflicts_stackError, conflicts_failing, conflicts_stackError, h]
  have hupper := writeWord_odd (i := true) (pastLimit_iff _ r (ea + 2)) hi (odd_add_two hodd) hafter
  rw [writeDouble, start_eq_inStep, writeWord_odd (pastLimit_iff u r ea) lo hodd h, bind_ok, upperAddress_inStep r (ne_of_odd hodd),
    hupper, ← two_accesses]
  rfl

theorem writeDouble_odd_reset (h : u.conflicts .addrErr = true) :
    writeDouble ea lo hi (decide (r = 15)) (start u) = .reset (deviceReset .trapConflict u) := by
  rw [writeDouble, start_eq_inStep, writeWord_odd_reset (pastLimit_iff u r ea) lo hodd h, bind_reset]

end

/-! ### PUSH -/

theorem not_pushFlags {s : State} (hstack : s.stackRoom 1) : ¬ s.pushFlags := by
  obtain ⟨heven, hlo, hhi, -, hlimit⟩ := hstack
  rw [pushFlags_iff heven hlo]
  rintro (hend | ⟨-, harmed, hpast⟩)
  · rw [hend] at hhi
    exact absurd hhi (by decide)
  · have := hlimit harmed
    omega

section
variable {s : State} {f : BitVec 15} (hdata : 0x0800 ≤ (f ++ 0#1).toNat)
  (himp : Device.dataImplemented s.device (f ++ 0#1).toNat = false)
include hdata himp

/-- PUSH of an address where nothing is implemented stores nothing and moves W15 (R221, R223). -/
theorem exec_push_unimplemented (hstack : s.stackRoom 1) (h : s.conflicts .addrErr = false) : ∃ p d, s.pcPast 1 p d ∧
    exec (.push f) s = .next { (s.putW 15 (s.getW 15 + 2)).finished p (d + 1) (cycles (.push f) s) with
      intcon1 := s.intcon1 ||| 0x0008 } := by
  obtain ⟨p, d, hp, hend⟩ := exists_finished_failing (.push f) s 1 (u := s.putW 15 (s.getW 15 + 2)) (bad := False)
    (n := 1) (inhibit := true) trivial rfl
  refine ⟨p, d, hp, ?_⟩
  have hread := readWord_failed not_viaW15 (.inr himp) (.inr hdata) h
  have hpush (v : Word) := push16_inhibited (s := (s.stackError False).failing True 1) v (bad := False)
    (iff_false_intro (not_pushFlags hstack)) hstack.1
  show execPush f s = _
  rw [execPush, fileAddress, hread, bind_ok, hpush, bind_ok, outcome_ok, Nat.add_comm d 1]
  exact congrArg Host.Outcome.next hend

theorem exec_push_unimplemented_reset (h : s.conflicts .addrErr = true) :
    exec (.push f) s = .next (deviceReset .trapConflict s) := by
  have hread := readWord_reset (i := false) not_viaW15 (.inr himp) (.inr hdata) h
  show execPush f s = _
  rw [execPush, fileAddress, start_eq_inStep, hread]
  rfl

end

/-- Settles O52: at an odd address both words are tried and neither stored; an unimplemented word read inhibits the push. -/
theorem addressErrorInhibitsStores : Obligations.AddressErrorInhibitsStores := by
  refine ⟨fun s m r k hm => ?_, fun s f hstack hdata himp =>
    ⟨exec_push_unimplemented hdata himp hstack, exec_push_unimplemented_reset hdata himp⟩⟩
  intro ea u hodd
  obtain ⟨w, x, hpointed⟩ : ∃ w x, u = { s with w := w, intcon1 := x } := pointer_frame m r 4 s
  have hlimit (a : Word) : u.pastLimit r a ↔ s.pastLimit r a := by rw [hpointed]
  have hpc : u.pc = s.pc := by rw [hpointed]
  have hconflicts : u.conflicts .addrErr = s.conflicts .addrErr := pointer_conflicts m r 4 s
  refine ⟨fun h => ?_, fun h => ?_⟩
  · obtain ⟨p, e, hp, hend⟩ := exists_finished_failing (.movdStore m r k) s 1 (u := u) (failed := True ∨ True) (n := 0 + 0)
      (bad := (r = 15 ∧ ea = 0xFFFF) ∨ s.pastLimit r ea ∨ s.pastLimit r (ea + 2)) (inhibit := true) (.inl trivial) hpc
    refine ⟨p, e, hp, ?_⟩
    rw [Nat.zero_add, Nat.zero_add] at hend
    rw [exec_movdStore_indirect s r k hm, writeDouble_odd _ _ hodd (hconflicts.trans h), bind_ok, outcome_ok, ← hend,
      stackError_congr u (or_congr_right (or_congr (hlimit ea) (hlimit (ea + 2))))]
  · rw [exec_movdStore_indirect s r k hm, writeDouble_odd_reset _ _ hodd (hconflicts.trans h), bind_reset, outcome_reset]

end Sys2Proof.Machine
end

section
/-! PROOFS. Reads that raise the address error: MOV.D from a pointer, the bit tests, and the pops of POP, RETURN and RETFIE. -/

namespace Sys2Proof.Machine

/-! ### Double words -/

theorem getLsbD_add_two (v : Word) : (v + 2).getLsbD 0 = v.getLsbD 0 := by
  rw [← getLsbD_sub_two, BitVec.add_sub_cancel]

/-- What the read of the lower word leaves: the flags of its access, and of the address of the upper one. -/
abbrev State.lowerRead (u : State) (r : WReg) (ea : Word) (failed : Prop) [Decidable failed] : State :=
  ((u.stackError (u.pastLimit r ea)).failing failed (if failed then 1 else 0)).stackError (r = 15 ∧ ea = 0xFFFF)

theorem lowerRead_conflicts (u : State) (r : WReg) (ea : Word) (failed : Prop) [Decidable failed] :
    (u.lowerRead r ea failed).conflicts .addrErr = u.conflicts .addrErr := by
  rw [conflicts_stackError, conflicts_failing, conflicts_stackError]

section
variable {u : State} {r : WReg} {ea : Word} (hend : ea ≠ 0xFFFE) (hdata1 : ea.getLsbD 0 = true ∨ 0x0800 ≤ ea.toNat)
  (hdata2 : (ea + 2).getLsbD 0 = true ∨ 0x0800 ≤ (ea + 2).toNat)
include hend hdata1 hdata2

/-- Two words read where no register can stand: each is free where its read raises the address error, and the other is read all the same
(R221, log 11). -/
theorem readDouble_data {failed1 failed2 : Prop} [Decidable failed1] [Decidable failed2] (hfailed1 : u.unreadable ea ↔ failed1)
    (hfailed2 : u.unreadable (ea + 2) ↔ failed2) (h : u.conflicts .addrErr = false) : ∃ lo hi inhibit,
      (¬ failed1 → lo = u.dataWord ea) ∧ (¬ failed2 → hi = u.dataWord (ea + 2)) ∧
      readDouble ea (decide (r = 15)) (start u) = .ok (lo, hi) (inStep
        ((u.stackError ((r = 15 ∧ ea = 0xFFFF) ∨ u.pastLimit r ea ∨ u.pastLimit r (ea + 2))).failing (failed1 ∨ failed2)
          ((if failed1 then 1 else 0) + if failed2 then 1 else 0)) inhibit) := by
  have hlower := readWord_data (i := false) (pastLimit_iff u r ea) hfailed1 hdata1 fun _ => h
  have hupper := readWord_data (s := u.lowerRead r ea failed1) (i := decide failed1) (pastLimit_iff u r (ea + 2)) hfailed2 hdata2
    fun _ => (lowerRead_conflicts u r ea failed1).trans h
  rw [two_accesses] at hupper
  refine ⟨u.tried failed1 ea, (u.lowerRead r ea failed1).tried failed2 (ea + 2), decide failed1 || decide failed2, tried_of_not,
    fun hf => (tried_of_not hf).trans rfl, ?_⟩
  rw [readDouble, start_eq_inStep, hlower, bind_ok, upperAddress_inStep r hend, Bool.false_or, hupper, bind_ok]

/-- Where the first read that fails is a conflict, nothing has been drawn before it (R228). -/
theorem readDouble_reset (hfailed : u.unreadable ea ∨ u.unreadable (ea + 2)) (h : u.conflicts .addrErr = true) :
    readDouble ea (decide (r = 15)) (start u) = .reset (deviceReset .trapConflict u) := by
  by_cases hlower : u.unreadable ea
  · rw [readDouble, start_eq_inStep, readWord_reset (pastLimit_iff u r ea) hlower hdata1 h, bind_reset]
  · have hread := readWord_data (i := false) (failed := False) (pastLimit_iff u r ea) (iff_false_intro hlower) hdata1 nofun
    have hupper := readWord_reset (s := u.lowerRead r ea False) (i := false) (pastLimit_iff u r (ea + 2))
      (hfailed.resolve_left hlower) hdata2 ((lowerRead_conflicts u r ea False).trans h)
    rw [readDouble, start_eq_inStep, hread, bind_ok, upperAddress_inStep r hend]
    exact congrArg (Run.bind · _) hupper

end

/-- Where the words of a MOV.D lie whose address is odd, or inside data memory. -/
theorem upper_word (u : State) {ea : Word} (hcase : ea.getLsbD 0 = true ∨ (0x0800 ≤ ea.toNat ∧ ea.toNat + 3 < 0x10000)) :
    ea ≠ 0xFFFE ∧ ((ea + 2).getLsbD 0 = true ∨ 0x0800 ≤ (ea + 2).toNat) ∧
      (u.unreadable (ea + 2) ↔ ea.getLsbD 0 = true ∨ Device.dataImplemented u.device (ea.toNat + 2) = false) := by
  rcases hcase with hodd | ⟨hlo, hhi⟩
  · have hodd2 := odd_add_two hodd
    exact ⟨ne_of_odd hodd, .inl hodd2, iff_of_true (.inl hodd2) (.inl hodd)⟩
  · have hup : (ea + 2).toNat = ea.toNat + 2 := toNat_add_two (by omega)
    refine ⟨?_, .inr (by omega), by rw [State.unreadable, getLsbD_add_two, hup]⟩
    rintro rfl
    exact absurd hhi (by decide)

/-- A register pair written, wherever the step stands (R214). -/
theorem writePairRegs_inStep (k : BitVec 3) (lo hi : Word) (u : State) (i : Bool) : writePairRegs k lo hi (inStep u i) =
    inStep (((u.putW (k ++ 0#1) lo).putW (k ++ 1#1) hi).stackError (k = 7 ∧ hi.toNat < 0x0800)) i := by
  have hlow : writeW (pairLow k) lo (inStep u i) = inStep (u.putW (k ++ 0#1) lo) i := writeW_plain _ fun h => absurd h (pairLow_ne k)
  rw [writePairRegs, hlow, writeW, ite_softTrap_stkErr]
  exact congrArg (inStep · i) (stackError_congr _ (and_congr_left' (pairHigh_eq_iff k)))

/-- The flags of a load and of the pair it writes. -/
theorem pairLoaded_failing (u : State) (a b : WReg) (lo hi : Word) (bad failed low : Prop) [Decidable bad] [Decidable failed]
    [Decidable low] (n : Nat) : ((((u.stackError bad).failing failed n).putW a lo).putW b hi).stackError low =
      (((u.putW a lo).putW b hi).stackError (low ∨ bad)).failing failed n := by
  rw [failing_putW, failing_putW, failing_stackError, stackError_putW, stackError_putW, stackError_stackError,
    stackError_congr _ or_comm]

theorem exec_movdLoad_indirect (s : State) (d : BitVec 3) {m : AddrMode} (r : WReg) (hm : m.isIndirect = true) :
    exec (.movdLoad d m r) s = ((readDouble (pointer m r 4 (start s)).1 (decide (r = 15))
      (start (pointer m r 4 (start s)).2.st)).bind fun v c =>
        .ok () (retire (.movdLoad d m r) s (advance 1 (writePairRegs d v.1 v.2 c)))).outcome := by
  show execMovdLoad d m r s = _
  rw [execMovdLoad, readPair_indirect hm, ← pointer_start]

/-- MOV.D of words of which one read has failed: the pair is written all the same (R221, R214). -/
theorem exec_movdLoad_failed {s u : State} {d : BitVec 3} {m : AddrMode} {r : WReg} {lo hi : Word} {bad failed : Prop} [Decidable bad]
    [Decidable failed] {n : Nat} {inhibit : Bool} (hm : m.isIndirect = true) (hfailed : failed) (hpc : u.pc = s.pc)
    (hread : readDouble (pointer m r 4 (start s)).1 (decide (r = 15)) (start (pointer m r 4 (start s)).2.st) =
      .ok (lo, hi) (inStep ((u.stackError bad).failing failed n) inhibit)) : ∃ p e, s.pcPast 1 p e ∧ exec (.movdLoad d m r) s = .next
        { ((u.putW (d ++ 0#1) lo).putW (d ++ 1#1) hi).finished p (n + e) (cycles (.movdLoad d m r) s) with
          intcon1 := u.intcon1 ||| if (d = 7 ∧ hi.toNat < 0x0800) ∨ bad then 0x000C else 0x0008 } := by
  obtain ⟨p, e, hp, hend⟩ := exists_finished_failing (.movdLoad d m r) s 1 (u := (u.putW (d ++ 0#1) lo).putW (d ++ 1#1) hi)
    (bad := (d = 7 ∧ hi.toNat < 0x0800) ∨ bad) (n := n) (inhibit := inhibit) hfailed hpc
  refine ⟨p, e, hp, ?_⟩
  rw [exec_movdLoad_indirect s d r hm, hread, bind_ok, writePairRegs_inStep, pairLoaded_failing, outcome_ok, hend]
  rfl

/-! ### Bit tests -/

/-- The words a bit test moves the PC by, in a state with the PC and the program of `s`. -/
theorem skipIf_words {s : State} {c : Cpu} (v : Word) (bit : BitVec 4) (skipOn : Bool) (hpc : c.st.pc = s.pc)
    (hprog : c.st.prog = s.prog) : skipIf (v.getLsbD bit.toNat == skipOn) c = advance (s.testWords v bit skipOn) c := by
  have hread : c.st.progRead (c.st.pc.toNat + 2) = s.progRead (s.pc.toNat + 2) := by
    simp only [State.progRead, State.progByte, hprog, hpc]
  simp only [skipIf_eq, State.skipWords, State.testWords, hread, beq_iff_eq]

/-- The end of a bit test whose read has failed: it skips as the free bit says (R221, log 1). -/
theorem exists_tested_failing (i : Instr) {s u : State} (v : Word) (bit : BitVec 4) (skipOn : Bool) {bad : Prop} [Decidable bad]
    (hpc : u.pc = s.pc) (hprog : u.prog = s.prog) : ∃ p d, s.pcPast (s.testWords v bit skipOn) p d ∧
      (retire i s (skipIf (v.getLsbD bit.toNat == skipOn) (inStep ((u.stackError bad).failing True 1) true))).st =
        { u.finished p (d + 1) (cycles i s) with intcon1 := u.intcon1 ||| if bad then 0x000C else 0x0008 } := by
  obtain ⟨p, d, hp, hend⟩ := exists_finished_failing i s (s.testWords v bit skipOn) (bad := bad) (failed := True) (n := 1)
    (inhibit := true) trivial hpc
  refine ⟨p, d, hp, ?_⟩
  rw [skipIf_words v bit skipOn (c := inStep ((u.stackError bad).failing True 1) true) hpc hprog, hend, Nat.add_comm]

/-- A bit test whose read raises the address error, in either form: `u` is the state its operand's address leaves. -/
theorem exec_test_failed {s u : State} {i : Instr} {bit : BitVec 4} {skipOn viaW15 : Bool} {ea : Word} {past : Prop} [Decidable past]
    (hexec : exec i s = ((readWord ea viaW15 (start u)).bind fun v c =>
      .ok () (retire i s (skipIf (v.getLsbD bit.toNat == skipOn) c))).outcome)
    (hpast : viaW15 = true ∧ u.splimArmed = true ∧ u.splim.toNat < ea.toNat ↔ past) (hfailed : u.unreadable ea)
    (hdata : ea.getLsbD 0 = true ∨ 0x0800 ≤ ea.toNat) (hpc : u.pc = s.pc) (hprog : u.prog = s.prog) :
    (u.conflicts .addrErr = false → ∃ (v : Word) (p : PC) (d : Nat), s.pcPast (s.testWords v bit skipOn) p d ∧ exec i s = .next
      { u.finished p (d + 1) (cycles i s) with intcon1 := u.intcon1 ||| if past then 0x000C else 0x0008 }) ∧
    (u.conflicts .addrErr = true → exec i s = .next (deviceReset .trapConflict u)) := by
  refine ⟨fun h => ?_, fun h => ?_⟩
  · obtain ⟨p, d, hp, hend⟩ := exists_tested_failing i (Config.freeWord u.draws) bit skipOn (bad := past) hpc hprog
    exact ⟨_, p, d, hp, by rw [hexec, readWord_failed hpast hfailed hdata h, bind_ok, outcome_ok, hend]⟩
  · rw [hexec, start_eq_inStep, readWord_reset hpast hfailed hdata h, bind_reset, outcome_reset]

/-! ### Pops -/

theorem unreadable_even {s : State} {ea : Word} (heven : ea.getLsbD 0 = false) :
    s.unreadable ea ↔ Device.dataImplemented s.device ea.toNat = false :=
  or_iff_right (by rw [heven]; exact Bool.false_ne_true)

/-- Two pops inside data memory can fail the limit check alone, and where one does, the first does, at the greater address. -/
theorem two_popFlags_above {s : State} (hlo : 0x0804 ≤ (s.getW 15).toNat) :
    s.popFlags ∨ (popped s).popFlags ↔ s.pastLimit 15 (s.getW 15 - 2) := by
  have hpast : s.pastLimit 15 (s.getW 15 - 4) → s.pastLimit 15 (s.getW 15 - 2) :=
    fun ⟨h15, harmed, hlimit⟩ => ⟨h15, harmed, by bv_omega⟩
  rw [two_popFlags, or_iff_right (by omega), or_iff_right (by bv_omega), or_iff_right (by bv_omega)]
  exact or_iff_left_of_imp hpast

section
variable {s : State} (heven : (s.getW 15).getLsbD 0 = false)
include heven

/-- A pop from an even stack pointer, inside data memory, can fail the limit check alone. -/
theorem popFlags_above (hlo : 0x0802 ≤ (s.getW 15).toNat) : s.popFlags ↔ s.pastLimit 15 (s.getW 15 - 2) := by
  have hzero : s.getW 15 ≠ 0 := by bv_omega
  rw [popFlags_iff heven, or_iff_right hzero, or_iff_right (by bv_omega)]

/-- POP from data memory that is not implemented. -/
theorem exec_pop_unimplemented (f : BitVec 15) (hlo : 0x0802 ≤ (s.getW 15).toNat)
    (himp : Device.dataImplemented s.device (s.getW 15 - 2).toNat = false) :
    (s.conflicts .addrErr = false → ∃ p d, s.pcPast 1 p d ∧ exec (.pop f) s = .next
      { (popped s).finished p (d + 1) (cycles (.pop f) s) with
        intcon1 := s.intcon1 ||| if s.pastLimit 15 (s.getW 15 - 2) then 0x000C else 0x0008 }) ∧
    (s.conflicts .addrErr = true → exec (.pop f) s = .next (deviceReset .trapConflict s)) := by
  have hdata : 0x0800 ≤ (s.getW 15 - 2).toNat := by bv_omega
  exact ⟨exec_pop_failed f (.inr hdata) (.inr himp) (popFlags_above heven hlo), exec_pop_reset f (.inr hdata) (.inr himp)⟩

end

/-- Settles O53: form by form, the read that fails and what the instruction makes of the free value; or the Reset. -/
theorem addressErrorReadsAreFree : Obligations.AddressErrorReadsAreFree := by
  refine ⟨fun s d m r hm => ?_, fun s i bit m r skipOn hi hm => ?_, fun s i bit f skipOn hi hdata himp => ?_, fun s heven => ?_⟩
  · intro ea u first second hcase
    obtain ⟨w, x, hpointed⟩ : ∃ w x, u = { s with w := w, intcon1 := x } := pointer_frame m r 4 s
    have hpc : u.pc = s.pc := by rw [hpointed]
    have hlimit (a : Word) : u.pastLimit r a ↔ s.pastLimit r a := by rw [hpointed]
    have hword (a : Word) : u.dataWord a = s.dataWord a := by rw [hpointed]; rfl
    have hconflicts : u.conflicts .addrErr = s.conflicts .addrErr := pointer_conflicts m r 4 s
    have hfirst : u.unreadable ea ↔ first := by rw [hpointed]
    have hdata1 : ea.getLsbD 0 = true ∨ 0x0800 ≤ ea.toNat := hcase.imp_right And.left
    have hany : first ∨ second := hcase.elim (fun hodd => .inl (.inl hodd)) fun h => h.2.2
    obtain ⟨hend, hdata2, hsecond⟩ := upper_word u (hcase.imp_right fun h => ⟨h.1, h.2.1⟩)
    replace hsecond : u.unreadable (ea + 2) ↔ second := by rw [hsecond, hpointed]
    refine ⟨fun h => ?_, fun h => ?_⟩
    · obtain ⟨lo, hi, inhibit, hlo, hhi, hread⟩ := readDouble_data (r := r) hend hdata1 hdata2 hfirst hsecond (hconflicts.trans h)
      rw [stackError_congr u (or_congr_right (or_congr (hlimit ea) (hlimit (ea + 2))))] at hread
      obtain ⟨p, e, hp, hexec⟩ := exec_movdLoad_failed (d := d) hm hany hpc hread
      exact ⟨lo, hi, p, e, hp, fun hf => (hlo hf).trans (hword ea), fun hf => (hhi hf).trans (hword (ea + 2)), hexec⟩
    · have hreset := readDouble_reset (r := r) hend hdata1 hdata2 ((or_congr hfirst hsecond).2 hany) (hconflicts.trans h)
      rw [exec_movdLoad_indirect s d r hm, hreset, bind_reset, outcome_reset]
  · intro ea u hfailed
    obtain ⟨w, x, hpointed⟩ : ∃ w x, u = { s with w := w, intcon1 := x } := pointer_frame m r 2 s
    have hconflicts : u.conflicts .addrErr = s.conflicts .addrErr := pointer_conflicts m r 2 s
    have hlimit : decide (r = 15) = true ∧ u.splimArmed = true ∧ u.splim.toNat < ea.toNat ↔ s.pastLimit r ea :=
      (pastLimit_iff u r ea).trans (by rw [hpointed])
    have hexec := exec_testOperand (s := s) hi
    rw [testOperand, readOperand_indirect hm, pointer_start] at hexec
    rw [← hconflicts]
    exact exec_test_failed hexec hlimit (by rw [hpointed]; exact hfailed.imp_right And.right) (hfailed.imp_right And.left)
      (by rw [hpointed]) (by rw [hpointed])
  · exact exec_test_failed (exec_testFile hi) not_viaW15 (.inr himp) (.inr hdata) rfl rfl
  · intro at1 at2 first second flagged
    refine ⟨fun f hlo hfirst => exec_pop_unimplemented heven f hlo hfirst, fun hlo hany => ?_⟩
    have heven1 : at1.getLsbD 0 = false := (getLsbD_sub_two _).trans heven
    have heven2 : at2.getLsbD 0 = false := (getLsbD_sub_four _).trans heven
    have hdata1 : 0x0800 ≤ (s.getW 15 - 2).toNat := by bv_omega
    have hdata2 : 0x0800 ≤ (s.getW 15 - 4).toNat := by bv_omega
    have hfirst := unreadable_even (s := s) heven1
    have hsecond := unreadable_even (s := s) heven2
    refine ⟨fun h => ?_, exec_returns_reset (.inr hdata1) (.inr hdata2) ((or_congr hfirst hsecond).2 hany)⟩
    obtain ⟨hi, lo, hhi, hlo, hreturn, hretfie⟩ := exec_returns_failed (.inr hdata1) (.inr hdata2)
      (two_popFlags_above hlo) hfirst hsecond hany h
    refine ⟨hi, lo, _, hhi, hlo, fun b => ?_, hreturn, hretfie⟩
    rw [getLsbD_setBit, if_congr (show 3 = b ∧ b < 16 ↔ b = 3 by omega) rfl rfl]

end Sys2Proof.Machine
end

section
/-! PROOFS. POP into a priority register, and the values a device Reset gives. -/

namespace Sys2Proof.Machine

/-! ### POP into IPCk -/

/-- The addresses of IPC0 to IPC11 are the even ones from 0x0094 on (R64). -/
theorem toNat_ipcAddress : ∀ n : Fin 12, (BitVec.ofNat 15 (0x4A + n) ++ 0#1 : Word).toNat = 0x0094 + 2 * n := by decide

/-- A word written to IPCk changes a priority on the fly in this case alone (R291, D13; log 20). -/
theorem priorityHazard_word_iff (s : State) (n : Fin 12) (v : Word) : s.priorityHazard n 0xFFFF v = true ↔
    s.cpuIpl < 7 ∧ ∃ j : Nat, j < 4 ∧ s.irqPresent (4 * n + j) = true ∧ s.irqEnable (4 * n + j) = true ∧
      (s.disicnt = 0 ∨ s.irqLevel (4 * n + j) = 7 ∨ (v.extractLsb' (4 * j) 3).toNat = 7) := by
  refine ⟨fun h => ?_, fun ⟨hcpu, hfields⟩ => priorityHazard_word hcpu hfields⟩
  simp only [State.priorityHazard, Bool.and_eq_true, decide_eq_true_eq, List.any_eq_true, Bool.not_eq_true',
    Bool.and_eq_false_iff, decide_eq_false_iff_not, ne_eq, not_not] at h
  obtain ⟨hcpu, j, hmem, ⟨⟨-, hpresent⟩, henable⟩, hcover⟩ := h
  exact ⟨hcpu, j, List.mem_range.1 hmem, hpresent, henable, or_assoc.1 hcover⟩

/-- IPCk written as a word, where that changes no priority on the fly (R40). -/
theorem writeReg_ipc_written {n : Fin 12} {v : Word} {c : Cpu} (h : ¬ c.st.priorityHazard n 0xFFFF v = true) :
    writeReg (.ipc n) true 0xFFFF v c = .ok () (c.update fun s =>
      { s with ipc := s.ipc.set n (accessWrite (ipcMask s.device n) 0 0xFFFF (s.ipc.get n) v) }) := by
  rw [writeReg, if_neg h]

/-- IPCk after a written word: three bits of a nibble are written, where the device has the source (R40, D12). -/
theorem getLsbD_ipcWrite (s : State) (k : Nat) (old v : Word) {j b : Nat} (hj : j < 4) (hb : b < 4) :
    (accessWrite (ipcMask s.device k) 0 0xFFFF old v).getLsbD (4 * j + b) =
      if b < 3 ∧ s.irqPresent (4 * k + j) = true then v.getLsbD (4 * j + b) else old.getLsbD (4 * j + b) := by
  have hmask : (ipcMask s.device k).getLsbD (4 * j + b) = true ↔ b < 3 ∧ s.irqPresent (4 * k + j) = true := by
    rw [getLsbD_ipcMask _ _ hj hb, Bool.and_eq_true, decide_eq_true_eq, and_comm]
    rfl
  have hclear : (0 : Word).getLsbD (4 * j + b) = false := BitVec.getLsbD_zero
  rw [getLsbD_accessWrite_word, if_congr hmask rfl rfl, hclear, if_neg Bool.false_ne_true]

/-- Settles O45: the pop before the write changes neither the sources nor what masks them. -/
theorem popWritesPriorities : Obligations.PopWritesPriorities := by
  intro s n hstack v f onTheFly
  have hazard : (start (popped s)).st.priorityHazard n 0xFFFF v = true ↔ onTheFly := priorityHazard_word_iff (popped s) n v
  have haddr : (f ++ 0#1 : Word).toNat = 0x0094 + 2 * n := toNat_ipcAddress n
  have hlo : (f ++ 0#1 : Word).toNat < 0x0800 := by omega
  have hreg : regAt s.device (f ++ 0#1 : Word).toNat = some (.ipc n) := by
    rw [haddr]
    exact regAt_of_tableReg _ (tableReg_ipc n)
  refine ⟨fun h => ?refused, fun h => ?written⟩
  case refused =>
    rw [exec_pop_reg hstack hlo hreg, writeReg_ipc_refused (hazard.2 h)]
    rfl
  case written =>
    obtain ⟨p, d, hp, hpop⟩ := exists_pop_reg hstack hlo hreg
    exact ⟨p, d, _, hp, hpop _ (writeReg_ipc_written (mt hazard.1 h)) rfl rfl,
      fun j b hj hb => getLsbD_ipcWrite s n (s.ipc.get n) v hj hb⟩

/-! ### Device Reset -/

/-- RESET is a device Reset by software, from any state (R170). -/
theorem exec_reset (s : State) : exec .reset s = .next (deviceReset .software s) := rfl

/-- Settles O6, register by register: only TRAPR depends on the cause. -/
theorem deviceResetHasSpecValues : Obligations.DeviceResetHasSpecValues := by
  intro cause s t
  refine ⟨rfl, rfl, rfl, rfl, rfl, rfl, rfl, rfl, rfl, rfl, rfl, rfl, rfl, rfl, rfl, rfl, rfl, fun hcause => ?_, exec_reset s⟩
  subst hcause
  exact deviceReset_trapConflict_trapr s

end Sys2Proof.Machine
end
